-- ==== Sys2Proof/Word.lean ====
section
/-! DEFINITION. The three widths of data the block moves (R5, R8, R10): all of them unsigned. -/

namespace Sys2Proof

/-- A 32-bit unsigned word: a register slot (R10), a byte address or byte count (R18), the accumulator (R26). -/
abbrev Word := BitVec 32

/-- A 16-bit unsigned value: a checksum word (R58), a folded sum or a checksum (R20, R21). -/
abbrev Half := BitVec 16

/-- One byte of data memory or of the stream (R6). -/
abbrev Byte := BitVec 8

end Sys2Proof
end

