-- ==== Sys2Proof/Syntax.lean ====
section
/-! DEFINITION. The command set ICA-1 (R50), the fields of a command word (R49), the names of the register
slots (R10) and the host's notation for what it does to the block (R55). -/

namespace Sys2Proof

/-- The six commands of rule R50, one per row of the opcode table. A command word has no register field and
no immediate (R49): every operand comes from an operand register (R53). -/
inductive Instr where
  /-- SUM: checksum of one buffer (R71). -/
  | sum
  /-- SUM2: checksum of two buffers read as one stream (R72). -/
  | sum2
  /-- FOLD: fold and complement a given 32-bit value (R73). -/
  | fold
  /-- VERIFY_IP: verify an IPv4 header checksum (R75). -/
  | verifyIp
  /-- VERIFY_V4: verify a checksum that covers the IPv4 pseudo-header (R83). -/
  | verifyV4
  /-- VERIFY_V6: verify a checksum that covers the IPv6 pseudo-header (R89). -/
  | verifyV6
  deriving DecidableEq, Repr

/-- The two fields of a command word (R49): OP in bits 3:0, RSV in bits 31:4. -/
structure CommandFields where
  op  : BitVec 4
  rsv : BitVec 28
  deriving DecidableEq, Repr

/-- The register slots of rule R10, by name. -/
inductive Slot where
  | ctrl | status | cmd | aAddr | aLen | bAddr | bLen | accIn | sum16 | cksum | faultAddr | phLen
  /-- PH0 to PH9: the window on the pseudo-header register (R24). -/
  | ph (k : Fin 10)
  /-- Indices 12 to 15 and 26 to 31 (R11). -/
  | reserved
  deriving DecidableEq, Repr

/-- What the outside world does to the block, one transaction each. `wr`, `rd` and `poll` are the host's
operations of rule R55, with the 5-bit slot index of rule R10. The others are the reset input (R106) and the
changes that the host or another agent makes to the data memory behind the block's read port (R31, R43, R45). -/
inductive HostOp where
  /-- `WR`: one register-port write of `v` to slot `i` (R55). -/
  | wr (i : BitVec 5) (v : Word)
  /-- `RD`: one register-port read of slot `i` (R55). -/
  | rd (i : BitVec 5)
  /-- `POLL`: read slot `i` again and again until `(value AND mask) = val`, one read per iteration (R55). -/
  | poll (i : BitVec 5) (mask val : Word)
  /-- The reset input is asserted (R106). -/
  | assertReset
  /-- The reset input is released (R106, R107). -/
  | releaseReset
  /-- The host or another agent writes byte `b` at `a`; `visible` says whether the write has reached the
  memory port (R43, R45 item 3). -/
  | store (a : Word) (b : Byte) (visible : Bool)
  /-- Every host write made so far reaches the memory port (R45 item 3, R108 item 1). -/
  | publish
  /-- The platform answers `BUS_ERROR` at `a` from now on (R5 `MemResp`, R32). -/
  | deny (a : Word)
  deriving DecidableEq, Repr

/-- The two agents of rule R9. -/
inductive Agent where
  | host
  | engine
  deriving DecidableEq, Repr

end Sys2Proof
end

