-- ==== Sys2Proof/Config.lean ====
section
/-! DEFINITION. The OPEN parameters of rule R5, each an uninterpreted constant, and the free value the spec's
memory rules ask for. The OPEN parameter `MemResp` is the state's memory (Machine/State.lean), since the platform
may change it while the block runs. -/

namespace Sys2Proof.Config

/-- `REG_BASE` (R5, R10, R39): where the platform maps slot 0. No rule depends on its value. -/
opaque regBase : Nat

/-- `NUM_INSTANCES` (R5, R103): how many independent copies of the block the platform has. This model is one of them. -/
opaque numInstances : Nat

/-- `LATENCY(op, j)` (R5, R115): the real time a command with these copied operands (A_ADDR, A_LEN, B_ADDR, B_LEN,
ACC_IN) takes. No rule of the model depends on it. -/
opaque latency : Instr → Word → Word → Word → Word → Word → Nat

/-- FREE VALUE (R43, R45 item 3, R112, I3, I11): the byte that the `n`-th read of a location changed under a running
command, or not made visible before it, returns. It may be any byte. -/
opaque freeByte : Nat → Byte

end Sys2Proof.Config
end

