-- ==== Sys2Proof/WellFormed.lean ====
section
/-! DEFINITION. Which command words are well formed (R49 to R52). An `Instr` itself carries no operand, so each of
the six is well formed; what can be ill formed is the word that the host writes to CMD. -/

namespace Sys2Proof

/-- The fields stand for a command: RSV is 0 (R49) and OP is one of 0x1 to 0x6 (R50). -/
def CommandFields.wf (f : CommandFields) : Bool :=
  decide (f.rsv = 0) && decide (1 ≤ f.op.toNat) && decide (f.op.toNat ≤ 6)

/-- Every command of R50 is well formed: the format has no register fields and no immediates (R49, R53). -/
def Instr.wf (i : Instr) : Bool :=
  match i with
  | .sum => true
  | .sum2 => true
  | .fold => true
  | .verifyIp => true
  | .verifyV4 => true
  | .verifyV6 => true

end Sys2Proof
end

