-- ==== Sys2Proof/Decode.lean ====
section
/-! DEFINITION. Decoding a 32-bit command word (R49 to R52, R54), total over all 2^32 words and rejecting by name,
and the encoder written from the table of R50. -/

namespace Sys2Proof

/-- Why a command word is ILLEGAL (R51). Both reasons end the command alike (R92). -/
inductive Illegal where
  /-- Some bit of RSV, bits 31:4, is set. -/
  | reservedBitsSet
  /-- OP is 0x0 or 0x7 to 0xF. -/
  | unassignedOp
  deriving DecidableEq, Repr

/-- The fields of a command word (R49). -/
def fieldsOf (c : Word) : CommandFields :=
  { op := c.extractLsb' 0 4, rsv := c.extractLsb' 4 28 }

/-- `Decode` of rule R51. -/
def decode (c : Word) : Except Illegal Instr :=
  if (fieldsOf c).rsv ≠ 0 then .error .reservedBitsSet
  else
    match (fieldsOf c).op.toNat with
    | 1 => .ok .sum
    | 2 => .ok .sum2
    | 3 => .ok .fold
    | 4 => .ok .verifyIp
    | 5 => .ok .verifyV4
    | 6 => .ok .verifyV6
    | _ => .error .unassignedOp

/-- The OP value of a command (R50). -/
def opOf (i : Instr) : BitVec 4 :=
  match i with
  | .sum => 0x1
  | .sum2 => 0x2
  | .fold => 0x3
  | .verifyIp => 0x4
  | .verifyV4 => 0x5
  | .verifyV6 => 0x6

/-- The command word of a command: RSV zero above its OP value (R49, R50). -/
def encode (i : Instr) : Word :=
  (0 : BitVec 28) ++ opOf i

/-- The command this decoder reads from a word of `nbits` bits whose value is `w` (bit 0 the least significant), the
bits above `nbits` zero. A command is one 32-bit word (R54), so a longer value with a bit above 31 set is none. -/
def decodeTableWord (nbits w : Nat) : Option Instr :=
  let v := w % 2 ^ nbits
  if v < 2 ^ 32 then
    match decode (BitVec.ofNat 32 v) with
    | .ok i => some i
    | .error _ => none
  else none

end Sys2Proof
end

