-- ==== Sys2Proof/Machine/State.lean ====
section
/-! DEFINITION. Everything the spec gives the machine: the host-visible registers (R10 to R24), the hidden engine
state (R26), the platform's memory as the read port sees it (R31, R32), the reset input (R106), and the model's own
fields that say which agent moves next and which memory bytes are free. All of it is plain data. -/

namespace Sys2Proof.Machine

/-- ERR_CODE (R16). Values 4 to 15 are never produced, so they have no name here. -/
inductive ErrCode where
  | none
  | illegalCmd
  | range
  | bus
  deriving DecidableEq, Repr

/-- The fields of STATUS (R14). The reserved bits read 0 and are kept nowhere (R12). -/
structure Status where
  busy    : Bool
  done    : Bool
  err     : Bool
  ovr     : Bool
  verdict : Bool
  errCode : ErrCode
  deriving DecidableEq, Repr

/-- Where the running command is (R26 `h.phase`). -/
inductive Phase where
  | idle
  | hdr
  | stream
  | finish
  deriving DecidableEq, Repr

/-- The running command and its operands, copied when it was accepted (R26 `h.job`, R65). -/
structure Job where
  op    : Instr
  aAddr : Word
  aLen  : Word
  bAddr : Word
  bLen  : Word
  accIn : Word
  deriving DecidableEq, Repr

/-- The platform's answer to a byte read (R5 `MemResp`, R32). -/
inductive MemResp where
  | ok (b : Byte)
  | busError
  deriving DecidableEq, Repr

/-- The data memory behind the read port: `(address, byte)` pairs, addresses strictly rising. A listed address answers
`OK(byte)`, an unlisted one `BUS_ERROR` (R32; log entry 1). -/
abbrev Memory := List Host.Cell

/-- The state of the block, of the memory it reads, and of the host that drives it. -/
structure State where
  /-- CTRL.IRQ_EN (R13), the one field of CTRL. -/
  irqEn : Bool
  /-- STATUS (R14). -/
  status : Status
  /-- A_ADDR (R18). -/
  aAddr : Word
  /-- A_LEN (R18). -/
  aLen : Word
  /-- B_ADDR (R18). -/
  bAddr : Word
  /-- B_LEN (R18). -/
  bLen : Word
  /-- ACC_IN (R19). -/
  accIn : Word
  /-- SUM16, bits 15:0 (R20). -/
  sum16 : Half
  /-- CKSUM, bits 15:0 (R21). -/
  cksum : Half
  /-- FAULT_ADDR (R22). -/
  faultAddr : Word
  /-- PH_LEN, bits 7:0 (R23). -/
  phLen : BitVec 8
  /-- PH[0..39], of which PH0 to PH9 are the window (R24). -/
  ph : Vector Byte 40
  /-- `h.job` (R26). -/
  job : Option Job
  /-- `h.phase` (R26). -/
  phase : Phase
  /-- `h.acc` (R26). -/
  acc : Word
  /-- `h.pend` (R26). -/
  pend : Option Byte
  /-- `h.pos` (R25, R26), a natural with no bound but the stream length (log entry 14). -/
  pos : Nat
  /-- `h.hpos` (R26). -/
  hpos : Nat
  /-- `h.hb` (R26). -/
  hb : Vector Byte 40
  /-- `h.ph`, the pseudo-header being built (R26). -/
  hph : Vector Byte 40
  /-- The reset input: true while it is asserted (R106). -/
  inReset : Bool
  /-- The platform's memory as the read port sees it, the OPEN parameter `MemResp` (R5, R32). -/
  mem : Memory
  /-- Addresses the host has written without making the write visible at the memory port (R45 item 3). -/
  hidden : List Nat
  /-- Addresses at which a read of the running command returns a free byte (R43). -/
  disturbed : List Nat
  /-- The model's own counter of free bytes drawn so far (log entry 3). -/
  draws : Nat
  /-- The host's transactions still to come, in arrival order (R45 item 1). -/
  host : List HostOp
  /-- Which agent takes each of the next steps (R9); when empty, the engine while BUSY, else the host (log entry 2). -/
  turns : List Agent
  /-- The word that the latest register-port read moved to the host; none when there was no read yet (R7 `x[NAME]`, R55). -/
  lastRead : Option Word
  deriving DecidableEq, Repr

/-- Why the machine stops. No step from a state that keeps the block's invariant stops (Safety.lean). -/
inductive Fault where
  /-- Raised by an engine turn in a state with BUSY = 1 in which `h.job`, `h.phase`, `h.hpos` and `h.pos` designate no step
  of R66 to R68. No run reaches such a state (R70). SAFE: the model stops where the spec describes no machine. -/
  | engineIncoherent
  /-- Raised by an engine turn whose job has a region that runs past address 0xFFFFFFFF, where no memory exists (R31, R40).
  Acceptance ends such a command with RANGE (R93), so no run reaches it. SAFE: the model stops. -/
  | addressOutsideSpace
  deriving DecidableEq, Repr

/-- Why an instruction has no meaning. -/
inductive Refusal where
  /-- Raised by `exec`'s arm of an instruction that has no meaning yet; no arm does so now. SAFE: the model stops. -/
  | notModelled (mnemonic : String)
  deriving DecidableEq, Repr

/-- The outcome of a step of this machine. -/
abbrev Outcome := Host.Outcome State Fault Refusal

/-- 40 zero bytes: `zeros(40)` of R65, the reset value of `PH`, `h.hb` and `h.ph` (R29). -/
def zeros40 : Vector Byte 40 := Vector.replicate 40 0

/-- STATUS after reset (R29). -/
def Status.reset : Status :=
  { busy := false, done := false, err := false, ovr := false, verdict := false, errCode := .none }

/-- The machine right after reset: every register and hidden field at the value of R29, the reset input released,
memory with nothing listed, and nothing yet asked of the block (log entries 1, 2, 3 and 4). -/
def State.reset : State :=
  { irqEn := false, status := Status.reset
    aAddr := 0, aLen := 0, bAddr := 0, bLen := 0, accIn := 0
    sum16 := 0, cksum := 0, faultAddr := 0, phLen := 0, ph := zeros40
    job := none, phase := .idle, acc := 0, pend := none, pos := 0, hpos := 0, hb := zeros40, hph := zeros40
    inReset := false, mem := [], hidden := [], disturbed := [], draws := 0
    host := [], turns := [], lastRead := none }

end Sys2Proof.Machine
end

