-- ==== Sys2Proof/Machine/Checksum.lean ====
section
/-! DEFINITION. The shared arithmetic of every command: joining stream bytes into words (R58), the accumulator with its
incremental fold (R59), the carry fold to 16 bits (R60) and the complement (R61). All of it is unsigned (R8, R64). -/

namespace Sys2Proof.Machine

/-- A checksum word from two stream bytes, the earlier one high (R34, R58). -/
def joinBytes (hi lo : Byte) : Half := hi ++ lo

/-- Bits 15:0 of a 32-bit value. -/
def lowHalf (v : Word) : Half := v.extractLsb' 0 16

/-- Bits 31:16 of a 32-bit value. -/
def highHalf (v : Word) : Half := v.extractLsb' 16 16

/-- One end-around fold: the high 16 bits added into the low 16 bits (R59, R60). -/
def foldPass (v : Word) : Word := (lowHalf v).setWidth 32 + (highHalf v).setWidth 32

/-- `FOLD_TRIGGER_BIT` (R5; the reading of the source that 90_conflicts.md C2 chooses). -/
abbrev foldTriggerBit : Nat := 31

/-- `Accumulate(w)` (R59). -/
def accumulate (acc : Word) (w : Half) : Word :=
  let v := acc + w.setWidth 32
  if v.getLsbD foldTriggerBit then foldPass v else v

/-- The loop of `Fold16` (R60), at most `fuel` passes. -/
def foldLoop : Nat → Word → Word
  | 0, v => v
  | fuel + 1, v => if highHalf v = 0 then v else foldLoop fuel (foldPass v)

/-- `Fold16(v)` (R60): the loop needs at most two passes for any 32-bit value. -/
def fold16 (v : Word) : Half := lowHalf (foldLoop 2 v)

/-- The one's complement of a folded sum: `Checksum16` (R61). -/
def complement16 (x : Half) : Half := x ^^^ 0xFFFF

end Sys2Proof.Machine
end

