-- ==== Sys2Proof/Machine/Flags.lean ====
section
/-! DEFINITION. STATUS as a word, every flag computation (VERDICT, the write-1-to-clear bits) and the interrupt line. -/

namespace Sys2Proof.Machine

/-- The number that ERR_CODE holds (R16). -/
def ErrCode.value (e : ErrCode) : BitVec 4 :=
  match e with
  | .none => 0
  | .illegalCmd => 1
  | .range => 2
  | .bus => 3

/-- The 32 bits that a read of STATUS returns (R14; reserved bits read 0, R12). -/
def Status.word (t : Status) : Word :=
  (0 : BitVec 20) ++ t.errCode.value ++ (0 : BitVec 3) ++ BitVec.ofBool t.verdict ++ BitVec.ofBool t.ovr
    ++ BitVec.ofBool t.err ++ BitVec.ofBool t.done ++ BitVec.ofBool t.busy

/-- The 32 bits that a read of CTRL returns (R13). -/
def ctrlWord (irqEn : Bool) : Word := (0 : BitVec 31) ++ BitVec.ofBool irqEn

/-- A host write of `v` to STATUS: write 1 to clear (R15). -/
def Status.clearBits (t : Status) (v : Word) : Status :=
  { t with
    done := t.done && !v.getLsbD 1
    err := t.err && !v.getLsbD 2
    errCode := if v.getLsbD 2 then .none else t.errCode
    ovr := t.ovr && !v.getLsbD 3 }

/-- STATUS after a command has been taken from CMD, before it is decoded: the first line of acceptance (R65). -/
def Status.takeCommand (t : Status) : Status :=
  { t with done := false, err := false, errCode := .none, verdict := false }

/-- STATUS after a CMD write that was dropped because BUSY = 1 (R65). -/
def Status.dropCommand (t : Status) : Status := { t with ovr := true }

/-- STATUS once a command has been accepted (R65). -/
def Status.start (t : Status) : Status := { t with busy := true }

/-- STATUS after the completion step, with the verdict `v` (R68). -/
def Status.complete (t : Status) (v : Bool) : Status := { t with busy := false, done := true, verdict := v }

/-- STATUS after an error end (R69). -/
def Status.endError (t : Status) (code : ErrCode) : Status :=
  { t with busy := false, done := true, err := true, errCode := code }

/-- `Verdict(c)` (R62). -/
def verdictOf (c : Half) : Bool := decide (c = 0x0000) || decide (c = 0xFFFF)

/-- The interrupt output, a level: `STATUS.DONE AND CTRL.IRQ_EN` at every moment (R26, R96). -/
def State.irq (s : State) : Bool := s.status.done && s.irqEn

end Sys2Proof.Machine
end

