-- ==== Sys2Proof/Machine/Operands.lean ====
section
/-! DEFINITION. Every operand form: the slot map of the register port (R10), the operands a command copies (R53, R65), the
regions it reads (R40, R65), the length of its stream and where each stream byte comes from (R57). -/

namespace Sys2Proof.Machine

/-- The slot that a 5-bit word index names (R10). -/
def slotOf (i : BitVec 5) : Slot :=
  match i.toNat with
  | 0 => .ctrl
  | 1 => .status
  | 2 => .cmd
  | 3 => .aAddr
  | 4 => .aLen
  | 5 => .bAddr
  | 6 => .bLen
  | 7 => .accIn
  | 8 => .sum16
  | 9 => .cksum
  | 10 => .faultAddr
  | 11 => .phLen
  | 16 => .ph 0
  | 17 => .ph 1
  | 18 => .ph 2
  | 19 => .ph 3
  | 20 => .ph 4
  | 21 => .ph 5
  | 22 => .ph 6
  | 23 => .ph 7
  | 24 => .ph 8
  | 25 => .ph 9
  | _ => .reserved

/-- The index of CMD (R10, R17). -/
def cmdIndex : BitVec 5 := 2

/-- The byte address of slot `i` in the platform's map: offset `4*i` from `REG_BASE` (R10, R102). -/
def slotAddress (i : BitVec 5) : Nat := Config.regBase + 4 * i.toNat

/-- `IP_HDR_FIXED_LEN` (R5, R74). -/
abbrev ipHdrFixedLen : Nat := 20

/-- The size of the IPv6 fixed header, whose region VERIFY_V6 checks (R65, R86). -/
abbrev ip6HdrFixedLen : Nat := 40

/-- `PH4_LEN` (R5, R81). -/
abbrev ph4Len : Nat := 12

/-- `PH6_LEN` (R5, R87). -/
abbrev ph6Len : Nat := 40

/-- `PhLen(op)` (R81, R87): the length of the pseudo-header that starts the stream; 0 for a command with none. -/
def phLenOf (op : Instr) : Nat :=
  match op with
  | .sum => 0
  | .sum2 => 0
  | .fold => 0
  | .verifyIp => 0
  | .verifyV4 => ph4Len
  | .verifyV6 => ph6Len

/-- The operands a command copies when it is accepted (R65, R109). -/
def copyOperands (op : Instr) (s : State) : Job :=
  { op := op, aAddr := s.aAddr, aLen := s.aLen, bAddr := s.bAddr, bLen := s.bLen, accIn := s.accIn }

/-- An operand region `(base, len)`: the addresses `base` to `base + len - 1`, as naturals (R40). -/
structure Region where
  base : Word
  len  : Nat
  deriving DecidableEq, Repr

/-- A region is legal unless it is non-empty and runs past address 0xFFFFFFFF (R40, R93). -/
def regionLegal (r : Region) : Bool := decide (r.len = 0) || decide (r.base.toNat + r.len ≤ 2 ^ 32)

/-- The address lies in the region (R40). -/
def regionCovers (r : Region) (a : Nat) : Bool := decide (r.base.toNat ≤ a) && decide (a < r.base.toNat + r.len)

/-- `Regions(op, j)` (R65), in order. -/
def regionsOf (j : Job) : List Region :=
  match j.op with
  | .sum => [⟨j.aAddr, j.aLen.toNat⟩]
  | .sum2 => [⟨j.aAddr, j.aLen.toNat⟩, ⟨j.bAddr, j.bLen.toNat⟩]
  | .fold => []
  | .verifyIp => [⟨j.aAddr, ipHdrFixedLen⟩, ⟨j.bAddr, j.bLen.toNat⟩]
  | .verifyV4 => [⟨j.aAddr, ipHdrFixedLen⟩, ⟨j.bAddr, j.bLen.toNat⟩]
  | .verifyV6 => [⟨j.aAddr, ip6HdrFixedLen⟩, ⟨j.bAddr, j.bLen.toNat⟩]

/-- The first region of a list that is not legal (R95 item 3). -/
def firstIllegal (rs : List Region) : Option Region := rs.find? (fun r => !regionLegal r)

/-- `len(S)` (R57); 0 for FOLD, which has no stream. A choice of the model (log entry 14): R25 bounds the length by
0xFFFFFFFF + 40, but the lengths of R57 and R72 for SUM2 can add up to 2 * 0xFFFFFFFF; the model follows R57 and R72, with no
bound of its own. -/
def streamLen (j : Job) : Nat :=
  match j.op with
  | .sum => j.aLen.toNat
  | .sum2 => j.aLen.toNat + j.bLen.toNat
  | .fold => 0
  | .verifyIp => ipHdrFixedLen + j.bLen.toNat
  | .verifyV4 => ph4Len + j.bLen.toNat
  | .verifyV6 => ph6Len + j.bLen.toNat

/-- Where a stream byte comes from (R57): a byte of `h.ph`, which reads no memory, or one memory read. -/
inductive StreamSource where
  | pseudoHeader (k : Nat)
  | memory (a : Nat)
  deriving DecidableEq, Repr

/-- A stream byte at index `i` of `M(base, n) ‖ M(base', n')`. -/
def twoRegions (a : Word) (aLen : Nat) (b : Word) (i : Nat) : StreamSource :=
  if i < aLen then .memory (a.toNat + i) else .memory (b.toNat + (i - aLen))

/-- A stream byte at index `i` of a pseudo-header of `n` bytes followed by `M(base, _)`. -/
def afterPseudoHeader (n : Nat) (b : Word) (i : Nat) : StreamSource :=
  if i < n then .pseudoHeader i else .memory (b.toNat + (i - n))

/-- The source of `StreamByte(op, j, i)` (R57). -/
def streamSource (j : Job) (i : Nat) : StreamSource :=
  match j.op with
  | .sum => .memory (j.aAddr.toNat + i)
  | .sum2 => twoRegions j.aAddr j.aLen.toNat j.bAddr i
  | .fold => .memory (j.aAddr.toNat + i)
  | .verifyIp => twoRegions j.aAddr ipHdrFixedLen j.bAddr i
  | .verifyV4 => afterPseudoHeader ph4Len j.bAddr i
  | .verifyV6 => afterPseudoHeader ph6Len j.bAddr i

end Sys2Proof.Machine
end

