-- ==== Sys2Proof/Machine/PseudoHeader.lean ====
section
/-! DEFINITION. The two pseudo-header assemblers: which header bytes are read (R80, R86) and how the pseudo-header is laid
out (R81, R82, R87, R88). -/

namespace Sys2Proof.Machine

/-- `HdrOffsets(VERIFY_V4)` (R80): protocol, source address, destination address. -/
def hdrOffsetsV4 : List Nat := [9, 12, 13, 14, 15, 16, 17, 18, 19]

/-- `HdrOffsets(VERIFY_V6)` (R86): payload length, next header, source address, destination address. -/
def hdrOffsetsV6 : List Nat := [4, 5, 6] ++ List.range' 8 32

/-- `HdrOffsets(op)`; empty for a command that reads no header (R66). -/
def hdrOffsets (op : Instr) : List Nat :=
  match op with
  | .sum => []
  | .sum2 => []
  | .fold => []
  | .verifyIp => []
  | .verifyV4 => hdrOffsetsV4
  | .verifyV6 => hdrOffsetsV6

/-- Byte `k` of a 40-byte register; 0 past its end. -/
def byteAt (v : Vector Byte 40) (k : Nat) : Byte := v.getD k 0

/-- The IPv4 length field `Lf`: the low 16 bits of B_LEN (R82). -/
def lengthFieldV4 (len : Word) : Half := lowHalf len

/-- `Assemble(VERIFY_V4, hb, L)` (R81): the 12-byte pseudo-header, the other 28 bytes zero. -/
def assembleV4 (hb : Vector Byte 40) (len : Word) : Vector Byte 40 :=
  Vector.ofFn fun i =>
    if i.val < 8 then byteAt hb (12 + i.val)
    else if i.val = 9 then byteAt hb 9
    else if i.val = 10 then (lengthFieldV4 len).extractLsb' 8 8
    else if i.val = 11 then (lengthFieldV4 len).extractLsb' 0 8
    else 0

/-- `Assemble(VERIFY_V6, hb, L)` (R87), which does not use `L`: the header's payload length zero-extended to the 4-byte
field at bytes 32 to 35, three zero bytes, then the next header (R88). -/
def assembleV6 (hb : Vector Byte 40) : Vector Byte 40 :=
  Vector.ofFn fun i =>
    if i.val < 32 then byteAt hb (8 + i.val)
    else if i.val = 34 then byteAt hb 4
    else if i.val = 35 then byteAt hb 5
    else if i.val = 39 then byteAt hb 6
    else 0

/-- `Assemble(op, hb, L)` (R66); the commands that assemble nothing leave `h.ph` at its zeros. -/
def assemble (op : Instr) (hb : Vector Byte 40) (len : Word) : Vector Byte 40 :=
  match op with
  | .sum => zeros40
  | .sum2 => zeros40
  | .fold => zeros40
  | .verifyIp => zeros40
  | .verifyV4 => assembleV4 hb len
  | .verifyV6 => assembleV6 hb

end Sys2Proof.Machine
end

