-- ==== Sys2Proof/Machine/Ops.lean ====
section
/-! DEFINITION. The named operations over memory and registers: the memory and its canonical form, the engine's read port
(R32, R43), the error end, which stands in for taking an exception (R69, R97), the acknowledgement that stands in for the
return (R98), the completion step (R68), acceptance (R65), and the register port's reads and writes (R10 to R24). -/

namespace Sys2Proof.Machine

/-! ### Plain updates of one field -/

/-- `s` with another STATUS. -/
def State.setStatus (x : Status) (s : State) : State := { s with status := x }

/-- `s` with another count of free bytes drawn. -/
def State.setDraws (n : Nat) (s : State) : State := { s with draws := n }

/-- `s` with other transactions of the host still to come. -/
def State.setHost (l : List HostOp) (s : State) : State := { s with host := l }

/-- `s` with another schedule. -/
def State.setTurns (l : List Agent) (s : State) : State := { s with turns := l }

/-- `s` with another word moved by the latest register-port read. -/
def State.setLastRead (v : Word) (s : State) : State := { s with lastRead := some v }

/-! ### Memory -/

/-- The canonical form: addresses strictly rising, all below 2^32 (R31). An unlisted address has no byte, so no entry can
equal what it reads as. -/
abbrev Memory.wf (m : Memory) : Prop :=
  m.Pairwise (fun c d => c.1 < d.1) ∧ ∀ c ∈ m, c.1 < 2 ^ 32

/-- `MemResp(a)`: the platform's answer to a byte read at `a` (R32). -/
def Memory.answer : Memory → Nat → MemResp
  | [], _ => .busError
  | (k, v) :: m, a => if k = a then .ok v else Memory.answer m a

/-- The memory in which address `a` answers `OK(b)`. -/
def Memory.set : Memory → Nat → Byte → Memory
  | [], a, b => [(a, b)]
  | (k, v) :: m, a, b =>
    if a < k then (a, b) :: (k, v) :: m
    else if a = k then (a, b) :: m
    else (k, v) :: Memory.set m a b

/-- The memory in which address `a` answers `BUS_ERROR`. -/
def Memory.deny (m : Memory) (a : Nat) : Memory := m.filter (fun c => c.1 ≠ a)

/-- The memory in which the bytes lie at `a`, `a + 1`, …: a `MEM` line of a program's start state (R55). -/
def Memory.setBytes : Memory → Nat → List Byte → Memory
  | m, _, [] => m
  | m, a, b :: bs => Memory.setBytes (Memory.set m a b) (a + 1) bs

/-- A set of addresses with one more, kept without repeats. -/
def insertAddr (a : Nat) (l : List Nat) : List Nat := if a ∈ l then l else a :: l

/-- `MemRead(a, 1)` (R7, R32) of the running command: the platform's answer, but a free byte where the location was changed
under the command, or not made visible before it (R43, R45 item 3). The state returned counts the free bytes drawn. -/
def memRead (s : State) (a : Nat) : MemResp × State :=
  match s.mem.answer a with
  | .busError => (.busError, s)
  | .ok b =>
    if a ∈ s.disturbed then (.ok (Config.freeByte s.draws), s.setDraws (s.draws + 1))
    else (.ok b, s)

/-- The job's regions cover the address (R43). -/
def jobCovers (j : Job) (a : Nat) : Bool := (regionsOf j).any (fun r => regionCovers r a)

/-- Address `a` lies in a region of the command that is running (R43). -/
def underRunningCommand (s : State) (a : Nat) : Bool :=
  match s.job with
  | none => false
  | some j => s.status.busy && jobCovers j a

/-- The host or another agent writes byte `b` at `a` (R31, R43, R45 item 3). Choices of the model that the spec leaves open (log
entry 3): a write of the byte that is already there changes nothing that a running command reads; a byte changed under a command
is free for the reads that the engine takes after the change, while a read taken before it keeps the byte it returned; a visible
write settles the address, also where an earlier write to it, of the same agent or another, was not yet visible. -/
def storeByte (a : Word) (b : Byte) (visible : Bool) (s : State) : State :=
  let changed := decide (s.mem.answer a.toNat ≠ .ok b)
  { s with
    mem := s.mem.set a.toNat b
    hidden :=
      if visible then s.hidden.erase a.toNat
      else if changed then insertAddr a.toNat s.hidden
      else s.hidden
    disturbed :=
      if changed && underRunningCommand s a.toNat then insertAddr a.toNat s.disturbed
      else s.disturbed }

/-- Every host write made so far reaches the memory port (R45 item 3). A command already running keeps its free bytes. -/
def publishStores (s : State) : State := { s with hidden := [] }

/-- The platform answers `BUS_ERROR` at `a` from now on (R32). -/
def denyByte (a : Word) (s : State) : State := { s with mem := s.mem.deny a.toNat }

/-! ### The end of a command -/

/-- `EndError(code, addr)` (R69): the block's stand-in for taking an exception (R97). The cause goes to STATUS, the address,
where there is one, to FAULT_ADDR; no result register changes. -/
def endError (code : ErrCode) (addr : Option Word) (s : State) : State :=
  { s with
    status := s.status.endError code
    faultAddr := addr.getD s.faultAddr
    job := none
    phase := .idle
    pend := none
    disturbed := [] }

/-- The host's acknowledgement: a write to STATUS (R15), the nearest thing to a return from an exception (R98). -/
def acknowledge (v : Word) (s : State) : State := s.setStatus (s.status.clearBits v)

/-- The accumulator after the odd tail byte, if there is one, has been added with a zero low byte (R58, R68). -/
def accWithTail (acc : Word) (pend : Option Byte) : Word :=
  match pend with
  | none => acc
  | some b => accumulate acc (joinBytes b 0)

/-- The pseudo-header register after a command completes (R24, R68). -/
def phAfter (op : Instr) (built old : Vector Byte 40) : Vector Byte 40 :=
  match op with
  | .sum => old
  | .sum2 => old
  | .fold => old
  | .verifyIp => old
  | .verifyV4 => built
  | .verifyV6 => built

/-- PH_LEN after a command completes (R23, R68). -/
def phLenAfter (op : Instr) (old : BitVec 8) : BitVec 8 :=
  match op with
  | .sum => old
  | .sum2 => old
  | .fold => old
  | .verifyIp => old
  | .verifyV4 => BitVec.ofNat 8 ph4Len
  | .verifyV6 => BitVec.ofNat 8 ph6Len

/-- The completion step (R68): every result register in one step. -/
def complete (j : Job) (s : State) : State :=
  let acc := accWithTail s.acc s.pend
  let sum := fold16 acc
  let cks := complement16 sum
  { s with
    acc := acc
    pend := none
    sum16 := sum
    cksum := cks
    ph := phAfter j.op s.hph s.ph
    phLen := phLenAfter j.op s.phLen
    status := s.status.complete (verdictOf cks)
    job := none
    phase := .idle
    disturbed := [] }

/-! ### Acceptance -/

/-- The phase in which an accepted command starts (R65). -/
def startPhase (j : Job) : Phase :=
  match j.op with
  | .sum => if streamLen j = 0 then .finish else .stream
  | .sum2 => if streamLen j = 0 then .finish else .stream
  | .fold => .finish
  | .verifyIp => if streamLen j = 0 then .finish else .stream
  | .verifyV4 => .hdr
  | .verifyV6 => .hdr

/-- The accumulator with which an accepted command starts: 0, or the value to fold (R27, R65). -/
def startAcc (j : Job) : Word :=
  match j.op with
  | .sum => 0
  | .sum2 => 0
  | .fold => j.accIn
  | .verifyIp => 0
  | .verifyV4 => 0
  | .verifyV6 => 0

/-- The last lines of acceptance (R65): the command runs. The bytes the host has not made visible are free for it (R45). -/
def startJob (j : Job) (s : State) : State :=
  { s with
    job := some j
    pend := none
    pos := 0
    hpos := 0
    hb := zeros40
    hph := zeros40
    acc := startAcc j
    phase := startPhase j
    status := s.status.start
    disturbed := s.hidden }

/-- A CMD write that the block takes or drops (R65): no effect while reset is asserted (R106), dropped with OVR while BUSY,
else the status of the last command is cleared and `go` goes on. -/
def takeCommand (go : State → State) (s : State) : State :=
  if s.inReset then s
  else if s.status.busy then s.setStatus s.status.dropCommand
  else go (s.setStatus s.status.takeCommand)

/-- Acceptance of a command that decoded (R65): RANGE for the first region that runs past the top (R93, R95), else it starts. -/
def checkAndStart (op : Instr) (s : State) : State :=
  match firstIllegal (regionsOf (copyOperands op s)) with
  | some r => endError .range (some r.base) s
  | none => startJob (copyOperands op s) s

/-- What a CMD write of a command's word does (R65). -/
def issue (op : Instr) (s : State) : State := takeCommand (checkAndStart op) s

/-- What a CMD write of an illegal word does (R65, R92). -/
def issueIllegal (s : State) : State := takeCommand (endError .illegalCmd none) s

/-! ### The reset input -/

/-- The block while reset is asserted: every register and hidden field at its value of R29, a running command abandoned
(R106). The memory, the host and the model's own counters are not the block's, and stay. -/
def assertReset (s : State) : State :=
  { State.reset with
    inReset := true
    mem := s.mem
    hidden := s.hidden
    draws := s.draws
    host := s.host
    turns := s.turns
    lastRead := s.lastRead }

/-- The reset input is released (R107). -/
def releaseReset (s : State) : State := { s with inReset := false }

/-! ### The register port -/

/-- PHk: four bytes of the pseudo-header register, the first in bits 31:24 (R24). -/
def phWord (ph : Vector Byte 40) (k : Fin 10) : Word :=
  byteAt ph (4 * k.val) ++ byteAt ph (4 * k.val + 1) ++ byteAt ph (4 * k.val + 2) ++ byteAt ph (4 * k.val + 3)

/-- The value of a slot (R10 to R24). -/
def readSlot (s : State) (r : Slot) : Word :=
  match r with
  | .ctrl => ctrlWord s.irqEn
  | .status => s.status.word
  | .cmd => 0
  | .aAddr => s.aAddr
  | .aLen => s.aLen
  | .bAddr => s.bAddr
  | .bLen => s.bLen
  | .accIn => s.accIn
  | .sum16 => s.sum16.setWidth 32
  | .cksum => s.cksum.setWidth 32
  | .faultAddr => s.faultAddr
  | .phLen => s.phLen.setWidth 32
  | .ph k => phWord s.ph k
  | .reserved => 0

/-- A register-port read of slot `i`: the slot's value, or its reset value while reset is asserted (R106). -/
def portRead (s : State) (i : BitVec 5) : Word :=
  readSlot (if s.inReset then State.reset else s) (slotOf i)

/-- A host write to a slot other than CMD (R11, R13, R15, R18, R19): read-only and reserved slots ignore it. A CMD write is
not a plain write (R17, Machine/Port.lean). -/
def writeSlot (r : Slot) (v : Word) (s : State) : State :=
  match r with
  | .ctrl => { s with irqEn := v.getLsbD 0 }
  | .status => acknowledge v s
  | .cmd => s
  | .aAddr => { s with aAddr := v }
  | .aLen => { s with aLen := v }
  | .bAddr => { s with bAddr := v }
  | .bLen => { s with bLen := v }
  | .accIn => { s with accIn := v }
  | .sum16 => s
  | .cksum => s
  | .faultAddr => s
  | .phLen => s
  | .ph _ => s
  | .reserved => s

end Sys2Proof.Machine
end

