-- ==== Sys2Proof/Machine/Engine.lean ====
section
/-! DEFINITION. The engine's steps while a command runs: header step (R66), stream step (R67) and completion step (R68,
in Machine/Ops.lean), one of which is enabled whenever BUSY = 1 (R70). -/

namespace Sys2Proof.Machine

/-- The state after a header byte `b` of offset `o` has been latched (R66). -/
def latchHeader (j : Job) (o : Nat) (b : Byte) (s : State) : State :=
  let hb := s.hb.setIfInBounds o b
  let last := decide (s.hpos + 1 = (hdrOffsets j.op).length)
  { s with
    hb := hb
    hpos := s.hpos + 1
    hph := if last then assemble j.op hb j.bLen else s.hph
    phase := if last then .stream else s.phase }

/-- The header step (R66). -/
def headerStep (j : Job) (s : State) : State :=
  let o := (hdrOffsets j.op).getD s.hpos 0
  let a := j.aAddr.toNat + o
  match memRead s a with
  | (.busError, t) => endError .bus (some (BitVec.ofNat 32 a)) t
  | (.ok b, t) => latchHeader j o b t

/-- The state after stream byte `b` has been taken (R67). -/
def takeStreamByte (j : Job) (b : Byte) (s : State) : State :=
  { s with
    acc :=
      match s.pend with
      | none => s.acc
      | some hi => accumulate s.acc (joinBytes hi b)
    pend :=
      match s.pend with
      | none => some b
      | some _ => none
    pos := s.pos + 1
    phase := if s.pos + 1 = streamLen j then .finish else s.phase }

/-- The stream step (R67). -/
def streamStep (j : Job) (s : State) : State :=
  match streamSource j s.pos with
  | .pseudoHeader k => takeStreamByte j (byteAt s.hph k) s
  | .memory a =>
    match memRead s a with
    | (.busError, t) => endError .bus (some (BitVec.ofNat 32 a)) t
    | (.ok b, t) => takeStreamByte j b t

/-- The one step that `h.phase` enables (R70). -/
def engineMove (j : Job) (s : State) : State :=
  match s.phase with
  | .idle => s
  | .hdr => headerStep j s
  | .stream => streamStep j s
  | .finish => complete j s

/-- The hidden state designates a step of R66 to R68. -/
def phaseCoherent (j : Job) (s : State) : Bool :=
  match s.phase with
  | .idle => false
  | .hdr => decide (s.hpos < (hdrOffsets j.op).length)
  | .stream => decide (s.pos < streamLen j)
  | .finish => true

/-- One turn of the engine. It has a step exactly while a command runs (R70, R105) and reset is not asserted (R106). -/
def engineStep (s : State) : Outcome :=
  if s.inReset then .next s
  else if !s.status.busy then .next s
  else
    match s.job with
    | none => .fault .engineIncoherent
    | some j =>
      if !phaseCoherent j s then .fault .engineIncoherent
      else if (firstIllegal (regionsOf j)).isSome then .fault .addressOutsideSpace
      else .next (engineMove j s)

end Sys2Proof.Machine
end

