-- ==== Sys2Proof/Machine/CoreAccumulator.lean ====
section
/-! DEFINITION. SUM, SUM2 and FOLD (40_core_accumulator.md): the meaning of a CMD write of each command's word, which is
the acceptance of the command (R65). The engine's steps then carry it out (Machine/Engine.lean). -/

namespace Sys2Proof.Machine

/-- SUM (R71): one region, `(A_ADDR, A_LEN)`. -/
def execSum (s : State) : Outcome := .next (issue .sum s)

/-- SUM2 (R72): the regions `(A_ADDR, A_LEN)` and `(B_ADDR, B_LEN)`, read as one stream. -/
def execSum2 (s : State) : Outcome := .next (issue .sum2 s)

/-- FOLD (R73): no region; the accumulator starts at ACC_IN. -/
def execFold (s : State) : Outcome := .next (issue .fold s)

end Sys2Proof.Machine
end

