-- ==== Sys2Proof/Machine/IpHeader.lean ====
section
/-! DEFINITION. VERIFY_IP (41_ip_header_verify.md). -/

namespace Sys2Proof.Machine

/-- VERIFY_IP (R75): 20 header bytes at A_ADDR (A_LEN ignored), then the options `(B_ADDR, B_LEN)`. -/
def execVerifyIp (s : State) : Outcome := .next (issue .verifyIp s)

end Sys2Proof.Machine
end

