-- ==== Sys2Proof/Machine/TransportV4.lean ====
section
/-! DEFINITION. VERIFY_V4 (42_ipv4_pseudo_header.md). -/

namespace Sys2Proof.Machine

/-- VERIFY_V4 (R83): the header fields at A_ADDR (A_LEN ignored), then pseudo-header and payload `(B_ADDR, B_LEN)`. -/
def execVerifyV4 (s : State) : Outcome := .next (issue .verifyV4 s)

end Sys2Proof.Machine
end

