-- ==== Sys2Proof/Machine/TransportV6.lean ====
section
/-! DEFINITION. VERIFY_V6 (43_ipv6_pseudo_header.md). -/

namespace Sys2Proof.Machine

/-- VERIFY_V6 (R89): the header fields at A_ADDR (A_LEN ignored), then pseudo-header and payload `(B_ADDR, B_LEN)`. -/
def execVerifyV6 (s : State) : Outcome := .next (issue .verifyV6 s)

end Sys2Proof.Machine
end

