-- ==== Sys2Proof/Machine/Dispatch.lean ====
section
/-! DEFINITION. One arm per command of the opcode table (R50). -/

namespace Sys2Proof.Machine

def exec (i : Instr) (s : State) : Host.Outcome State Fault Refusal :=
  match i with
  | .sum => Sys2Proof.Machine.execSum s
  | .sum2 => Sys2Proof.Machine.execSum2 s
  | .fold => Sys2Proof.Machine.execFold s
  | .verifyIp => Sys2Proof.Machine.execVerifyIp s
  | .verifyV4 => Sys2Proof.Machine.execVerifyV4 s
  | .verifyV6 => Sys2Proof.Machine.execVerifyV6 s

end Sys2Proof.Machine
end

