-- ==== Sys2Proof/Machine/Port.lean ====
section
/-! DEFINITION. The host's side of the block (R9, R31, R45, R55, R106): one transaction is one step. A write to CMD is its
own fetch (R47): its data word is decoded and the command's meaning runs. -/

namespace Sys2Proof.Machine

/-- A host write of `c` to CMD (R17, R47, R51, R65). -/
def writeCmd (c : Word) (s : State) : Outcome :=
  match decode c with
  | .ok i => exec i s
  | .error _ => .next (issueIllegal s)

/-- A register-port write (R10 to R19); no effect while reset is asserted (R106). -/
def portWrite (i : BitVec 5) (v : Word) (s : State) : Outcome :=
  if slotOf i = .cmd then writeCmd v s
  else if s.inReset then .next s
  else .next (writeSlot (slotOf i) v s)

/-- One iteration of POLL (R55): one read; the host goes on when the masked value is the wanted one, and else reads again. A choice
of the model (log entry 7): everything outside the engine stands in one list, so neither a reset nor another agent's store falls
between two reads of a POLL at its head; such a run is written with single RDs. -/
def pollOnce (i : BitVec 5) (mask val : Word) (s : State) : State :=
  if portRead s i &&& mask = val then s.setLastRead (portRead s i)
  else (s.setLastRead (portRead s i)).setHost (.poll i mask val :: s.host)

/-- What a transaction of the outside world does, after it has been taken from the host's list. -/
def hostOp (o : HostOp) (s : State) : Outcome :=
  match o with
  | .wr i v => portWrite i v s
  | .rd i => .next (s.setLastRead (portRead s i))
  | .poll i mask val => .next (pollOnce i mask val s)
  | .assertReset => .next (assertReset s)
  | .releaseReset => .next (releaseReset s)
  | .store a b visible => .next (storeByte a b visible s)
  | .publish => .next (publishStores s)
  | .deny a => .next (denyByte a s)

/-- One turn of the host: its next transaction in arrival order (R45 item 1); nothing when it has none. -/
def hostStep (s : State) : Outcome :=
  match s.host with
  | [] => .next s
  | o :: rest => hostOp o (s.setHost rest)

/-- The agent that takes the next step, and the turns left after it (R9; log entry 2). -/
def nextTurn (s : State) : Agent × List Agent :=
  match s.turns with
  | a :: rest => (a, rest)
  | [] => (if s.status.busy then .engine else .host, [])

/-- The state with command word `c` as the host's very next transaction: what `withFetchWord` does (R47). -/
def withCommandNext (c : Word) (s : State) : State :=
  { s with host := .wr cmdIndex c :: s.host, turns := .host :: s.turns }

end Sys2Proof.Machine
end

