-- ==== Sys2Proof/Machine/HostProgram.lean ====
section
/-! DEFINITION. The host notation's shorthands and pseudo-instructions (R55, R56), as the lists of host transactions they
expand to. -/

namespace Sys2Proof.Machine

/-- `SUM`, `SUM2`, …: shorthand for `WR CMD, <command word>` (R55). -/
def wrCmd (i : Instr) : HostOp := .wr cmdIndex (encode i)

/-- `POLL STATUS, 0x1, 0x0`: wait for BUSY = 0 (R56). -/
def pollIdle : HostOp := .poll 1 0x1 0x0

/-- `CSUM a, n` (R56). -/
def csum (a n : Word) : List HostOp := [.wr 3 a, .wr 4 n, wrCmd .sum, pollIdle]

/-- `CSUM2 a, n, b, m` (R56). -/
def csum2 (a n b m : Word) : List HostOp := [.wr 3 a, .wr 4 n, .wr 5 b, .wr 6 m, wrCmd .sum2, pollIdle]

/-- `CFOLD v` (R56). -/
def cfold (v : Word) : List HostOp := [.wr 7 v, wrCmd .fold, pollIdle]

/-- `VIP h, o, m` (R56). -/
def vip (h o m : Word) : List HostOp := [.wr 3 h, .wr 5 o, .wr 6 m, wrCmd .verifyIp, pollIdle]

/-- `VV4 h, p, n` (R56). -/
def vv4 (h p n : Word) : List HostOp := [.wr 3 h, .wr 5 p, .wr 6 n, wrCmd .verifyV4, pollIdle]

/-- `VV6 h, p, n` (R56). -/
def vv6 (h p n : Word) : List HostOp := [.wr 3 h, .wr 5 p, .wr 6 n, wrCmd .verifyV6, pollIdle]

/-- `CLR` (R56): clears DONE, ERR with ERR_CODE, and OVR. -/
def clr : List HostOp := [.wr 1 0xE]

end Sys2Proof.Machine
end

