-- ==== Sys2Proof/Machine/Step.lean ====
section
/-! DEFINITION. One step of the machine: the agent whose turn it is takes one atomic step (R9). -/

namespace Sys2Proof.Machine

/-- One step: the host's next transaction or the engine's one enabled step, the turn taken from the schedule. -/
def step (s : State) : Host.Outcome State Fault Refusal :=
  match nextTurn s with
  | (.host, rest) => hostStep (s.setTurns rest)
  | (.engine, rest) => engineStep (s.setTurns rest)

/-- `s` with the `nbits`-bit command word `w` where the machine fetches: a command arrives as the data of a host write to CMD
(R17, R47), so the very next step is that write. -/
def State.withFetchWord (s : State) (nbits w : Nat) : State :=
  withCommandNext (BitVec.ofNat 32 (w % 2 ^ nbits)) s

end Sys2Proof.Machine
end

