-- ==== Sys2Proof/Machine/Stream.lean ====
section
/-! DEFINITION. What the engine's steps amount to over a whole stream, as functions of its bytes: the words of a stream (R58),
their sum and its closed form (R63), the source's splice algorithm (R72), and the memory requests of a run (R41). No step
uses them; the statements about whole runs do. -/

namespace Sys2Proof.Machine

/-- The full words of a byte sequence, two bytes each (R58). -/
def fullWords : List Byte → List Half
  | a :: b :: r => joinBytes a b :: fullWords r
  | [_] => []
  | [] => []

/-- The word of an odd last byte: high byte the byte, low byte zero (R58). -/
def tailWords : List Byte → List Half
  | _ :: _ :: r => tailWords r
  | [a] => [joinBytes a 0]
  | [] => []

/-- The words of a stream (R58). -/
def wordsOf (bs : List Byte) : List Half := fullWords bs ++ tailWords bs

/-- The sum of words as an unbounded natural: `T` of R63. -/
def totalOf (ws : List Half) : Nat := (ws.map BitVec.toNat).sum

/-- The closed form of the folded sum (R63). -/
def closedSum (T : Nat) : Nat := if T = 0 then 0 else 1 + (T - 1) % 0xFFFF

/-- SUM16 of a stream by the source's algorithm: accumulate every word, then fold (R71). -/
def streamSum (bs : List Byte) : Half := fold16 ((wordsOf bs).foldl accumulate 0)

/-- One addition with an incremental fold that happens or not as `f` says: some other schedule than R59's (R63). -/
def addThenMaybeFold (acc : Word) (wf : Half × Bool) : Word :=
  if wf.2 then foldPass (acc + wf.1.setWidth 32) else acc + wf.1.setWidth 32

/-- No sum leaves 32 bits before the fold that may follow it, under the schedule given beside the words (R59, R64). -/
def fitsThroughout : Word → List (Half × Bool) → Bool
  | _, [] => true
  | acc, wf :: r => decide (acc.toNat + wf.1.toNat < 2 ^ 32) && fitsThroughout (addThenMaybeFold acc wf) r

/-- The words that the source's `sum2` accumulates, in order, by its splice algorithm (R72). -/
def spliceWords (a b : List Byte) : List Half :=
  if a.length % 2 = 1 then
    match b with
    | [] => fullWords a ++ [joinBytes (a.getLastD 0) 0]
    | y :: r => fullWords a ++ joinBytes (a.getLastD 0) y :: (fullWords r ++ tailWords r)
  else fullWords a ++ (fullWords b ++ tailWords b)

/-- The two bytes of a word exchanged (R64). -/
def swapBytes (w : Half) : Half := joinBytes (w.extractLsb' 0 8) (w.extractLsb' 8 8)

/-- `M(base, n)` (R57), when the platform answers `OK` at every address of the region; none otherwise. -/
def bytesAt (m : Memory) : Nat → Nat → Option (List Byte)
  | _, 0 => some []
  | a, n + 1 =>
    match m.answer a with
    | .busError => none
    | .ok b => (bytesAt m (a + 1) n).map (b :: ·)

/-- The header bytes in memory at `base` are those of `hb`, at every offset the command reads (R80, R86). -/
def headerBytesAt (m : Memory) (base : Nat) (op : Instr) (hb : Vector Byte 40) : Bool :=
  (hdrOffsets op).all (fun o => decide (m.answer (base + o) = .ok (byteAt hb o)))

/-- The address that the engine's enabled step requests at the memory port, if that step reads memory (R41, R66, R67). -/
def readRequest (s : State) : Option Nat :=
  match s.job with
  | none => none
  | some j =>
    match s.phase with
    | .idle => none
    | .hdr => some (j.aAddr.toNat + (hdrOffsets j.op).getD s.hpos 0)
    | .stream =>
      match streamSource j s.pos with
      | .pseudoHeader _ => none
      | .memory a => some a
    | .finish => none

/-- `n` turns of the engine with no turn of the host between them. -/
def engineRun : Nat → State → Outcome
  | 0, s => .next s
  | n + 1, s =>
    match engineStep s with
    | .next t => engineRun n t
    | .fault f => .fault f
    | .refused r => .refused r

/-- The addresses requested at the memory port during `n` turns of the engine, in order (R41). -/
def requestsOf : Nat → State → List Nat
  | 0, _ => []
  | n + 1, s =>
    match engineStep s with
    | .next t => (readRequest s).toList ++ requestsOf n t
    | .fault _ => []
    | .refused _ => []

end Sys2Proof.Machine
end

