-- ==== Sys2Proof/Safety.lean ====
section
/-! DEFINITION. What counts as a state the block can be in (its invariant), what a command needs to be taken, and the
relations that say what a step leaves unchanged. -/

namespace Sys2Proof.Machine

/-- The block takes a command written to CMD: it is idle (R65) and reset is not asserted (R106). -/
abbrev Ready (s : State) : Prop := s.status.busy = false ∧ s.inReset = false

/-- CTRL and the operand registers are the same (R13, R18, R19). -/
abbrev SameOperands (s t : State) : Prop :=
  t.irqEn = s.irqEn ∧ t.aAddr = s.aAddr ∧ t.aLen = s.aLen ∧ t.bAddr = s.bAddr ∧ t.bLen = s.bLen ∧ t.accIn = s.accIn

/-- The result registers SUM16, CKSUM, PH and PH_LEN are the same (R20, R21, R23, R24). -/
abbrev SameResults (s t : State) : Prop :=
  t.sum16 = s.sum16 ∧ t.cksum = s.cksum ∧ t.ph = s.ph ∧ t.phLen = s.phLen

/-- What is outside the block is the same: every byte the platform answers, the reset input, what the host has not published,
the host's transactions, the schedule and the last word read. -/
abbrev SameOutside (s t : State) : Prop :=
  (∀ a, t.mem.answer a = s.mem.answer a) ∧ t.inReset = s.inReset ∧ t.hidden = s.hidden ∧ t.host = s.host ∧
    t.turns = s.turns ∧ t.lastRead = s.lastRead

/-- The hidden state of a running command `j` is one that the engine's steps leave between them (R26, R27, R66 to R68). -/
structure RunInv (j : Job) (s : State) : Prop where
  /-- Acceptance lets no region through that runs past the top (R65). -/
  legal : firstIllegal (regionsOf j) = none
  /-- One step is enabled (R70). -/
  coherent : phaseCoherent j s = true
  /-- `h.pos` and `h.hpos` stay in their ranges (R26). -/
  posBound : s.pos ≤ streamLen j
  hposBound : s.hpos ≤ (hdrOffsets j.op).length
  /-- Bit 31 of the accumulator is 0 between two steps of any command but FOLD (R27). -/
  accBound : j.op ≠ .fold → s.acc.getLsbD 31 = false
  /-- A byte waits for its partner exactly after an odd number of stream bytes (R67). -/
  pendParity : s.pend.isSome = decide (s.pos % 2 = 1)
  /-- While the header is read, no stream byte has been taken (R66). -/
  header : s.phase = .hdr → s.pos = 0
  /-- After the header, the pseudo-header is the one assembled from the latched bytes (R66). -/
  assembled : s.phase ≠ .hdr → s.hpos = (hdrOffsets j.op).length ∧ s.hph = assemble j.op s.hb j.bLen
  /-- The completion step comes when every stream byte has been taken (R67). -/
  finished : s.phase = .finish → s.pos = streamLen j

/-- The invariant of the block. -/
structure State.Inv (s : State) : Prop where
  /-- The memory is in canonical form (R31). -/
  memory : s.mem.wf
  /-- BUSY is 1 exactly while a command runs (R14, R26). -/
  busyIff : s.status.busy = s.job.isSome
  /-- The engine is idle exactly when no command runs (R26). -/
  idleIff : s.job = none ↔ s.phase = .idle
  /-- While a command runs, DONE, ERR and VERDICT are 0 (R14). -/
  busyClear : s.status.busy = true → s.status.done = false ∧ s.status.err = false ∧ s.status.verdict = false
  /-- ERR_CODE is 0 exactly when ERR is 0 (R14, R16). -/
  errIff : s.status.errCode = .none ↔ s.status.err = false
  /-- VERDICT is 0 after an error end (R14, R69). -/
  errVerdict : s.status.err = true → s.status.verdict = false
  /-- CKSUM is the complement of SUM16 once a command has completed (R21). -/
  checksum : s.cksum = ~~~s.sum16 ∨ (s.sum16 = 0 ∧ s.cksum = 0)
  /-- VERDICT says what CKSUM says (R62). -/
  verdict : s.status.verdict = true → s.cksum = 0 ∨ s.cksum = 0xFFFF
  /-- PH_LEN is 0, 12 or 40, and bytes past it are 0 (R23, R24). -/
  window : s.phLen = 0 ∧ s.ph = zeros40 ∨ s.phLen = 12 ∧ (∀ k, 12 ≤ k → byteAt s.ph k = 0) ∨ s.phLen = 40
  /-- The running command's hidden state. -/
  running : ∀ j, s.job = some j → RunInv j s
  /-- No byte is free unless a command runs (R43). -/
  settled : s.status.busy = false → s.disturbed = []
  /-- While reset is asserted, every register and hidden field has its reset value (R106). -/
  underReset : s.inReset = true → s = assertReset s

/-- A command has ended without an error, with these results of the byte stream `bs` it checksummed (R62, R63, R68): the state
`u` at its end, `s` the state in which it was written to CMD. FAULT_ADDR, CTRL, the operand registers and everything outside
the block are as they were. -/
abbrev EndedWith (s u : State) (bs : List Byte) : Prop :=
  u.sum16 = BitVec.ofNat 16 (closedSum (totalOf (wordsOf bs))) ∧
  u.cksum = ~~~u.sum16 ∧
  u.status = { busy := false, done := true, err := false, ovr := s.status.ovr,
               verdict := decide (totalOf (wordsOf bs) % 0xFFFF = 0), errCode := .none } ∧
  u.job = none ∧ u.phase = .idle ∧ u.faultAddr = s.faultAddr ∧ SameOperands s u ∧ SameOutside s u

/-- The command accepted in state `t` runs for exactly `n` engine turns, the last of which leads to `u` (R70): BUSY is 1
before each of them. -/
abbrev RunsExactly (n : Nat) (t u : State) : Prop :=
  engineRun n t = .next u ∧ ∀ k, k < n → ∃ m, engineRun k t = .next m ∧ m.status.busy = true

/-- The steps a running command has left if no read fails: header reads, stream bytes, and the completion step (R70). -/
def stepsLeft (j : Job) (s : State) : Nat :=
  ((hdrOffsets j.op).length - s.hpos) + (streamLen j - s.pos) + 1

/-- A transaction that respects the running command `j`: a register-port access, publishing, or a change of memory outside the
command's regions (R43, R109). -/
def respects (j : Job) (o : HostOp) : Bool :=
  match o with
  | .wr _ _ => true
  | .rd _ => true
  | .poll _ _ _ => true
  | .assertReset => false
  | .releaseReset => false
  | .store a _ _ => !jobCovers j a.toNat
  | .publish => true
  | .deny a => !jobCovers j a.toNat

end Sys2Proof.Machine
end

