-- ==== Sys2Proof/Certificates/Slice0/Obligations.lean ====
section
/-! DEFINITION. The statements for the provers. Each formalises the rules of spec/ that its docstring names. -/

open Sys2Proof Sys2Proof.Machine

/-! ### Encoding -/

/-- R50: the opcode map, each command word written out, and the words of the illegal OP values. -/
def Obligations.CommandWordsAreTheTable : Prop :=
  (decode 0x00000001 = .ok .sum ∧ decode 0x00000002 = .ok .sum2 ∧ decode 0x00000003 = .ok .fold ∧
    decode 0x00000004 = .ok .verifyIp ∧ decode 0x00000005 = .ok .verifyV4 ∧ decode 0x00000006 = .ok .verifyV6) ∧
  decode 0x00000000 = .error .unassignedOp ∧
  ∀ w : Word, 0x7 ≤ w.toNat → w.toNat ≤ 0xF → decode w = .error .unassignedOp

/-- R51, R52: a word decodes to a command exactly when it is that command's word, and is ILLEGAL exactly when a bit of 31:4
is set or OP is 0x0 or 0x7 to 0xF. -/
def Obligations.OnlyTheSixWordsDecode : Prop :=
  ∀ c : Word,
    (∀ i : Instr, decode c = .ok i ↔ c = encode i) ∧
    ((∃ e, decode c = .error e) ↔ (c.toNat / 16 ≠ 0 ∨ c.toNat % 16 = 0 ∨ 7 ≤ c.toNat % 16))

/-- R49, R50, R54: decoding the word of a command gives the command, also through the opcode table's numbering, and that word is
well formed. -/
def Obligations.DecodeOfEncodeIsTheCommand : Prop :=
  ∀ i : Instr, decode (encode i) = .ok i ∧ decodeTableWord 32 (encode i).toNat = some i ∧
    (fieldsOf (encode i)).wf = true ∧ i.wf = true

/-! ### Steps -/

/-- R9, R47: a step is a transaction of the host or a step of the engine, as the turn says; a CMD write whose word decodes to a
command runs that command's meaning after the transaction has been taken from the host's list. The last part is the same for a
word placed by `withFetchWord`. That the engine takes the turns while BUSY when no turn is listed is the model's choice
(log entry 2), on which this statement does not rest. -/
def Obligations.StepRunsTheWrittenCommand : Prop :=
  (∀ (s : State) (c : Word) (i : Instr) (rest : List HostOp) (turns : List Agent),
    nextTurn s = (.host, turns) → s.host = .wr 2 c :: rest → decode c = .ok i →
      step s = exec i { s with host := rest, turns := turns }) ∧
  (∀ (s : State) (turns : List Agent),
    nextTurn s = (.engine, turns) → step s = engineStep { s with turns := turns }) ∧
  (∀ (s : State) (w : Nat) (i : Instr), w < 2 ^ 32 → decode (BitVec.ofNat 32 w) = .ok i →
    step (s.withFetchWord 32 w) = exec i s)

/-- R45 item 1, R55: the host's transactions take effect one at a time in the order of the list: a turn of the host does the head
transaction, whichever it is, on the state in which it has left the list, and nothing when there is none; only a POLL whose masked
value is not the wanted one stands at the head again afterwards. A write is the register port's write, and a read or one read of a
POLL returns the slot's value and changes nothing else. That POLL is one read for each step is the model's choice (log entry 7). -/
def Obligations.HostTransactionsTakeEffectInOrder : Prop :=
  (∀ (s : State) (o : HostOp) (rest : List HostOp) (turns : List Agent),
    nextTurn s = (.host, turns) → s.host = o :: rest → step s = hostOp o { s with host := rest, turns := turns }) ∧
  (∀ (s : State) (turns : List Agent),
    nextTurn s = (.host, turns) → s.host = [] → step s = .next { s with turns := turns }) ∧
  (∀ (s : State) (i : BitVec 5) (v : Word), hostOp (.wr i v) s = portWrite i v s) ∧
  (∀ (s : State) (i : BitVec 5), hostOp (.rd i) s = .next { s with lastRead := some (portRead s i) }) ∧
  (∀ (s : State) (i : BitVec 5) (mask val : Word),
    hostOp (.poll i mask val) s = .next { s with
      host := if portRead s i &&& mask = val then s.host else .poll i mask val :: s.host
      lastRead := some (portRead s i) }) ∧
  (∀ (s t : State) (o : HostOp), hostOp o s = .next t → (∀ i mask val, o ≠ .poll i mask val) →
    t.host = s.host ∧ t.turns = s.turns)

/-! ### Registers and reset -/

/-- R29: reset leaves every slot reading 0, every hidden field at 0, none or IDLE, and `irq` at 0. -/
def Obligations.ResetSetsEveryRegister : Prop :=
  (∀ i : BitVec 5, portRead State.reset i = 0) ∧
  State.reset.irqEn = false ∧
  State.reset.status =
    { busy := false, done := false, err := false, ovr := false, verdict := false, errCode := .none } ∧
  State.reset.aAddr = 0 ∧ State.reset.aLen = 0 ∧ State.reset.bAddr = 0 ∧ State.reset.bLen = 0 ∧ State.reset.accIn = 0 ∧
  State.reset.sum16 = 0 ∧ State.reset.cksum = 0 ∧ State.reset.faultAddr = 0 ∧ State.reset.phLen = 0 ∧
  (∀ k, byteAt State.reset.ph k = 0) ∧
  State.reset.job = none ∧ State.reset.phase = .idle ∧ State.reset.acc = 0 ∧ State.reset.pend = none ∧
  State.reset.pos = 0 ∧ State.reset.hpos = 0 ∧ (∀ k, byteAt State.reset.hb k = 0) ∧ (∀ k, byteAt State.reset.hph k = 0) ∧
  State.reset.irq = false

/-- R106, R107: asserting reset, in any state, sets every register and hidden field to its reset value, whatever ran; while it stays
asserted, register writes (CMD among them) have no effect and reads return the reset values; releasing it changes nothing else. The
model's choice, not the rule's (log entry 12): the platform's memory, what the host has not published, the host's list, the schedule,
the last word read and the counter of free bytes stay, and an engine turn in reset does nothing. -/
def Obligations.AssertedResetClearsTheBlock : Prop :=
  (∀ s : State, ∃ t, hostOp .assertReset s = .next t ∧
    t = { State.reset with
          inReset := true, mem := s.mem, hidden := s.hidden, draws := s.draws, host := s.host, turns := s.turns
          lastRead := s.lastRead } ∧
    t.irq = false ∧ t.status.done = false) ∧
  (∀ s : State, s.inReset = true →
    (∀ i v, portWrite i v s = .next s) ∧ (∀ i, portRead s i = portRead State.reset i) ∧ engineStep s = .next s) ∧
  (∀ s : State, hostOp .releaseReset s = .next { s with inReset := false })

/-- R11: reserved slots (12 to 15, 26 to 31) read 0, and a write to a reserved or a read-only slot (8 to 11, 16 to 25) has no
effect. -/
def Obligations.ReservedAndReadOnlySlotsIgnoreWrites : Prop :=
  ∀ (s : State) (i : BitVec 5),
    ((12 ≤ i.toNat ∧ i.toNat ≤ 15) ∨ 26 ≤ i.toNat → portRead s i = 0) ∧
    (8 ≤ i.toNat → ∀ v : Word, portWrite i v s = .next s)

/-- R13: a write to CTRL keeps bit 0 as IRQ_EN and ignores the reserved bits, a read returns IRQ_EN in bit 0 and 0 above, and
neither a command nor the engine changes CTRL. -/
def Obligations.CtrlHoldsOnlyIrqEnable : Prop :=
  (∀ (s : State) (v : Word), s.inReset = false →
    portWrite 0 v s = .next { s with irqEn := v.getLsbD 0 }) ∧
  (∀ s : State, s.inReset = false → (portRead s 0).toNat = s.irqEn.toNat) ∧
  (∀ (s t : State) (c : Word), portWrite 2 c s = .next t → t.irqEn = s.irqEn) ∧
  (∀ s t : State, engineStep s = .next t → t.irqEn = s.irqEn)

/-- R18, R19: each operand register takes every bit of a write and nothing else changes, a read returns it, and the engine never
writes one. -/
def Obligations.OperandRegistersHoldWhatIsWritten : Prop :=
  (∀ (s : State) (v : Word), s.inReset = false →
    portWrite 3 v s = .next { s with aAddr := v } ∧ portWrite 4 v s = .next { s with aLen := v } ∧
    portWrite 5 v s = .next { s with bAddr := v } ∧ portWrite 6 v s = .next { s with bLen := v } ∧
    portWrite 7 v s = .next { s with accIn := v }) ∧
  (∀ s : State, s.inReset = false →
    portRead s 3 = s.aAddr ∧ portRead s 4 = s.aLen ∧ portRead s 5 = s.bAddr ∧ portRead s 6 = s.bLen ∧
    portRead s 7 = s.accIn) ∧
  (∀ s t : State, engineStep s = .next t → SameOperands s t)

/-- R15: a write to STATUS clears DONE, ERR with ERR_CODE, and OVR where it has a 1, and changes nothing else; while BUSY = 1 it
changes only OVR. -/
def Obligations.StatusWriteClearsItsBits : Prop :=
  (∀ (s : State) (v : Word), s.inReset = false →
    portWrite 1 v s = .next { s with status :=
      { busy := s.status.busy
        done := if v.getLsbD 1 then false else s.status.done
        err := if v.getLsbD 2 then false else s.status.err
        ovr := if v.getLsbD 3 then false else s.status.ovr
        verdict := s.status.verdict
        errCode := if v.getLsbD 2 then .none else s.status.errCode } }) ∧
  ∀ (s : State) (v : Word), s.Inv → s.status.busy = true →
    portWrite 1 v s = .next { s with status := { s.status with ovr := if v.getLsbD 3 then false else s.status.ovr } }

/-- R12, R14, R16: a read of STATUS has BUSY, DONE, ERR, OVR and VERDICT in bits 0 to 4, ERR_CODE (0 NONE, 1 ILLEGAL_CMD, 2 RANGE,
3 BUS) in bits 11:8, and 0 in every reserved bit. -/
def Obligations.StatusReadHasItsFields : Prop :=
  ∀ s : State, s.inReset = false →
    (portRead s 1).toNat =
      s.status.busy.toNat + 2 * s.status.done.toNat + 4 * s.status.err.toNat + 8 * s.status.ovr.toNat +
        16 * s.status.verdict.toNat +
        256 * (match s.status.errCode with | .none => 0 | .illegalCmd => 1 | .range => 2 | .bus => 3)

/-- R17, R20, R21, R22, R23, R24: what the read-only slots return. CMD reads 0, SUM16 and CKSUM have bits 31:16 zero, PH_LEN has
bits 31:8 zero, and PHk packs four pseudo-header bytes, the first in bits 31:24. -/
def Obligations.ReadOnlySlotsShowTheirRegisters : Prop :=
  ∀ s : State, s.inReset = false →
    portRead s 2 = 0 ∧ (portRead s 8).toNat = s.sum16.toNat ∧ (portRead s 9).toNat = s.cksum.toNat ∧
    portRead s 10 = s.faultAddr ∧ (portRead s 11).toNat = s.phLen.toNat ∧
    ∀ k, k < 10 →
      (portRead s (BitVec.ofNat 5 (16 + k))).toNat =
        (byteAt s.ph (4 * k)).toNat * 2 ^ 24 + (byteAt s.ph (4 * k + 1)).toNat * 2 ^ 16 +
          (byteAt s.ph (4 * k + 2)).toNat * 2 ^ 8 + (byteAt s.ph (4 * k + 3)).toNat

/-- R96: `irq` is 1 exactly when DONE and IRQ_EN are; a write of 1 to STATUS.DONE, IRQ_EN set to 0, acceptance of a command and
reset each lower it, and the end of a command, with or without an error, raises it when IRQ_EN is 1. -/
def Obligations.InterruptFollowsDoneAndEnable : Prop :=
  (∀ s : State, s.irq = true ↔ s.status.done = true ∧ s.irqEn = true) ∧
  (∀ (s t : State) (v : Word), s.inReset = false → v.getLsbD 1 = true → portWrite 1 v s = .next t → t.irq = false) ∧
  (∀ (s t : State) (v : Word), s.inReset = false → v.getLsbD 0 = false → portWrite 0 v s = .next t → t.irq = false) ∧
  (∀ (i : Instr) (s t : State), Ready s → exec i s = .next t → t.status.busy = true → t.irq = false) ∧
  (∀ s t : State, hostOp .assertReset s = .next t → t.irq = false) ∧
  (∀ s t : State, s.status.busy = true → engineStep s = .next t → t.status.busy = false → t.irq = s.irqEn) ∧
  (∀ (s t : State) (c : Word), Ready s → portWrite 2 c s = .next t → t.status.busy = false → t.irq = s.irqEn)

/-! ### Memory -/

/-- R31, R32: after the host or another agent stores a byte, the platform answers that byte there and as before at every other
address; after it denies an address, the platform answers BUS_ERROR there and as before at every other address; neither changes
anything of the block. That a store maps its address, and that denying is a transaction, are the model's choices (log entry 1); which
addresses become free is log entry 3. -/
def Obligations.StoredByteIsTheAnswer : Prop :=
  (∀ (s : State) (a : Word) (x : Byte) (visible : Bool),
    ∃ t, hostOp (.store a x visible) s = .next t ∧
      t.mem.answer a.toNat = .ok x ∧ (∀ b, b ≠ a.toNat → t.mem.answer b = s.mem.answer b) ∧
      t = { s with mem := t.mem, hidden := t.hidden, disturbed := t.disturbed }) ∧
  (∀ (s : State) (a : Word),
    ∃ t, hostOp (.deny a) s = .next t ∧
      t.mem.answer a.toNat = .busError ∧ (∀ b, b ≠ a.toNat → t.mem.answer b = s.mem.answer b) ∧
      t = { s with mem := t.mem }) ∧
  ∀ (m : Memory) (a b : Nat) (x : Byte),
    (m.set a x).answer a = .ok x ∧ (b ≠ a → (m.set a x).answer b = m.answer b) ∧
    (m.deny a).answer a = .busError ∧ (b ≠ a → (m.deny a).answer b = m.answer b)

/-- R33: no command, no engine step and no register access changes what the platform answers at any address. -/
def Obligations.BlockNeverWritesMemory : Prop :=
  (∀ (i : Instr) (s t : State), exec i s = .next t → ∀ a, t.mem.answer a = s.mem.answer a) ∧
  (∀ s t : State, engineStep s = .next t → ∀ a, t.mem.answer a = s.mem.answer a) ∧
  (∀ (s t : State) (i : BitVec 5) (v : Word), portWrite i v s = .next t → ∀ a, t.mem.answer a = s.mem.answer a)

/-- R32, R43: a read returns the platform's answer, but any byte (whatever `Config.freeByte` gives) where the byte changed under the
running command; nothing but the model's counter of free bytes changes. The model's choices (log entry 3): which addresses are
listed as changed, and that a changed address that answers BUS_ERROR when it is read gives that answer and no byte. -/
def Obligations.ReadReturnsTheAnswerOrAFreeByte : Prop :=
  ∀ (s : State) (a : Nat),
    (s.mem.answer a = .busError → memRead s a = (.busError, s)) ∧
    (∀ b, s.mem.answer a = .ok b → a ∉ s.disturbed → memRead s a = (.ok b, s)) ∧
    (∀ b, s.mem.answer a = .ok b → a ∈ s.disturbed →
      memRead s a = (.ok (Config.freeByte s.draws), { s with draws := s.draws + 1 }))

/-- R43, R45 item 3, R112: a byte of the running command's regions that a store changes while BUSY = 1, and a byte stored but not
made visible before the command was written, are free for that command; publishing empties the list of bytes not visible and changes
nothing else. Which bytes count as changed or not visible is the model's choice (log entry 3), and so is that a store to an address
that answered BUS_ERROR changes it (log entries 1 and 3). -/
def Obligations.UnsettledBytesAreFree : Prop :=
  (∀ (s t : State) (j : Job) (a : Word) (b : Byte) (visible : Bool),
    s.status.busy = true → s.job = some j → jobCovers j a.toNat = true → s.mem.answer a.toNat ≠ .ok b →
      hostOp (.store a b visible) s = .next t → a.toNat ∈ t.disturbed) ∧
  (∀ (s t : State) (a : Word) (b : Byte), s.mem.answer a.toNat ≠ .ok b →
    hostOp (.store a b false) s = .next t → a.toNat ∈ t.hidden) ∧
  (∀ (s t : State) (i : Instr), Ready s → exec i s = .next t → t.status.busy = true → t.disturbed = s.hidden) ∧
  (∀ s : State, hostOp .publish s = .next { s with hidden := [] })

/-- R32, R41: an engine step reads no address but the one it requests: with any other memory that answers alike there, it does the
same. -/
def Obligations.EngineReadsOnlyTheRequestedAddress : Prop :=
  ∀ (s t : State) (m : Memory), (∀ a, readRequest s = some a → m.answer a = s.mem.answer a) →
    engineStep s = .next t → engineStep { s with mem := m } = .next { t with mem := m }

/-- R41, R57, R80, R86: an accepted command none of whose reads fails requests the header bytes it needs, once each in ascending
offset order, then each memory byte of its stream once, in ascending stream order, and no other address. That a SUM2 stream can
be longer than R25's bound is the model's choice (log entry 14). -/
def Obligations.RunReadsEachByteOnceInOrder : Prop :=
  ∀ (i : Instr) (s t u : State) (n : Nat), Ready s → exec i s = .next t → t.status.busy = true →
    RunsExactly n t u → u.status.busy = false → u.status.err = false →
      requestsOf n t =
        match i with
        | .sum => (List.range s.aLen.toNat).map (s.aAddr.toNat + ·)
        | .sum2 => (List.range s.aLen.toNat).map (s.aAddr.toNat + ·) ++ (List.range s.bLen.toNat).map (s.bAddr.toNat + ·)
        | .fold => []
        | .verifyIp => (List.range 20).map (s.aAddr.toNat + ·) ++ (List.range s.bLen.toNat).map (s.bAddr.toNat + ·)
        | .verifyV4 =>
          [9, 12, 13, 14, 15, 16, 17, 18, 19].map (s.aAddr.toNat + ·) ++ (List.range s.bLen.toNat).map (s.bAddr.toNat + ·)
        | .verifyV6 =>
          ([4, 5, 6] ++ (List.range 32).map (8 + ·)).map (s.aAddr.toNat + ·) ++
            (List.range s.bLen.toNat).map (s.bAddr.toNat + ·)

/-! ### Acceptance: where each command completes its own effect -/

/-- R53, R65, R71: a CMD write of SUM to the idle block, its buffer legal, is accepted: BUSY is set, the last command's DONE,
ERR, ERR_CODE and VERDICT cleared, the operands copied, and the stream read next (or the command finished next, if it is empty).
Which bytes are free for the command (the model's field `disturbed`) is the model's choice (log entry 3). -/
def Obligations.SumIsAccepted : Prop :=
  ∀ s : State, Ready s → (s.aLen = 0 ∨ s.aAddr.toNat + s.aLen.toNat ≤ 2 ^ 32) →
    exec .sum s = .next { s with
      status := { busy := true, done := false, err := false, ovr := s.status.ovr, verdict := false, errCode := .none }
      job := some { op := .sum, aAddr := s.aAddr, aLen := s.aLen, bAddr := s.bAddr, bLen := s.bLen, accIn := s.accIn }
      phase := if s.aLen = 0 then .finish else .stream
      acc := 0, pend := none, pos := 0, hpos := 0, hb := zeros40, hph := zeros40, disturbed := s.hidden }

/-- R53, R65, R72: the same for SUM2 with both buffers legal. Which bytes are free for the command (the model's field
`disturbed`) is the model's choice (log entry 3). -/
def Obligations.Sum2IsAccepted : Prop :=
  ∀ s : State, Ready s → (s.aLen = 0 ∨ s.aAddr.toNat + s.aLen.toNat ≤ 2 ^ 32) →
    (s.bLen = 0 ∨ s.bAddr.toNat + s.bLen.toNat ≤ 2 ^ 32) →
    exec .sum2 s = .next { s with
      status := { busy := true, done := false, err := false, ovr := s.status.ovr, verdict := false, errCode := .none }
      job := some { op := .sum2, aAddr := s.aAddr, aLen := s.aLen, bAddr := s.bAddr, bLen := s.bLen, accIn := s.accIn }
      phase := if s.aLen = 0 ∧ s.bLen = 0 then .finish else .stream
      acc := 0, pend := none, pos := 0, hpos := 0, hb := zeros40, hph := zeros40, disturbed := s.hidden }

/-- R53, R65, R73: FOLD is accepted whatever the address and length registers hold; the accumulator takes ACC_IN. Which bytes
are free for the command (the model's field `disturbed`) is the model's choice (log entry 3). -/
def Obligations.FoldIsAccepted : Prop :=
  ∀ s : State, Ready s →
    exec .fold s = .next { s with
      status := { busy := true, done := false, err := false, ovr := s.status.ovr, verdict := false, errCode := .none }
      job := some { op := .fold, aAddr := s.aAddr, aLen := s.aLen, bAddr := s.bAddr, bLen := s.bLen, accIn := s.accIn }
      phase := .finish
      acc := s.accIn, pend := none, pos := 0, hpos := 0, hb := zeros40, hph := zeros40, disturbed := s.hidden }

/-- R53, R65, R74, R75: VERIFY_IP needs 20 legal bytes at A_ADDR, whatever A_LEN holds, and legal options. Which bytes are free
for the command (the model's field `disturbed`) is the model's choice (log entry 3). -/
def Obligations.VerifyIpIsAccepted : Prop :=
  ∀ s : State, Ready s → s.aAddr.toNat + 20 ≤ 2 ^ 32 → (s.bLen = 0 ∨ s.bAddr.toNat + s.bLen.toNat ≤ 2 ^ 32) →
    exec .verifyIp s = .next { s with
      status := { busy := true, done := false, err := false, ovr := s.status.ovr, verdict := false, errCode := .none }
      job := some
        { op := .verifyIp, aAddr := s.aAddr, aLen := s.aLen, bAddr := s.bAddr, bLen := s.bLen, accIn := s.accIn }
      phase := .stream
      acc := 0, pend := none, pos := 0, hpos := 0, hb := zeros40, hph := zeros40, disturbed := s.hidden }

/-- R53, R65, R83: VERIFY_V4 needs 20 legal bytes at A_ADDR and a legal payload; the header is read first. Which bytes are free
for the command (the model's field `disturbed`) is the model's choice (log entry 3). -/
def Obligations.VerifyV4IsAccepted : Prop :=
  ∀ s : State, Ready s → s.aAddr.toNat + 20 ≤ 2 ^ 32 → (s.bLen = 0 ∨ s.bAddr.toNat + s.bLen.toNat ≤ 2 ^ 32) →
    exec .verifyV4 s = .next { s with
      status := { busy := true, done := false, err := false, ovr := s.status.ovr, verdict := false, errCode := .none }
      job := some
        { op := .verifyV4, aAddr := s.aAddr, aLen := s.aLen, bAddr := s.bAddr, bLen := s.bLen, accIn := s.accIn }
      phase := .hdr
      acc := 0, pend := none, pos := 0, hpos := 0, hb := zeros40, hph := zeros40, disturbed := s.hidden }

/-- R53, R65, R89: VERIFY_V6 needs 40 legal bytes at A_ADDR and a legal payload; the header is read first. Which bytes are free
for the command (the model's field `disturbed`) is the model's choice (log entry 3). -/
def Obligations.VerifyV6IsAccepted : Prop :=
  ∀ s : State, Ready s → s.aAddr.toNat + 40 ≤ 2 ^ 32 → (s.bLen = 0 ∨ s.bAddr.toNat + s.bLen.toNat ≤ 2 ^ 32) →
    exec .verifyV6 s = .next { s with
      status := { busy := true, done := false, err := false, ovr := s.status.ovr, verdict := false, errCode := .none }
      job := some
        { op := .verifyV6, aAddr := s.aAddr, aLen := s.aLen, bAddr := s.bAddr, bLen := s.bLen, accIn := s.accIn }
      phase := .hdr
      acc := 0, pend := none, pos := 0, hpos := 0, hb := zeros40, hph := zeros40, disturbed := s.hidden }

/-! ### Commands that are turned away or end in an error -/

/-- R65, R95 item 1, R110: a CMD write while BUSY = 1, of any word, changes nothing but OVR, which it sets. -/
def Obligations.CommandWhileBusyOnlySetsOvr : Prop :=
  ∀ (s : State) (c : Word), s.status.busy = true → s.inReset = false →
    portWrite 2 c s = .next { s with status := { s.status with ovr := true } }

/-- R92: a word that decodes to no command ends at once: DONE = 1, ERR = 1, ERR_CODE = 1, VERDICT = 0, BUSY stays 0, and
FAULT_ADDR, the results and everything else are unchanged. That the end of a command empties the model's list of free bytes,
`disturbed`, is the model's choice (log entry 3). -/
def Obligations.IllegalCommandEndsAtOnce : Prop :=
  ErrCode.illegalCmd.value = 1 ∧
  ∀ (s : State) (c : Word), Ready s →
    (c.toNat / 16 ≠ 0 ∨ c.toNat % 16 = 0 ∨ 7 ≤ c.toNat % 16) →
      portWrite 2 c s = .next { s with
        status := { busy := false, done := true, err := true, ovr := s.status.ovr, verdict := false, errCode := .illegalCmd }
        job := none, phase := .idle, pend := none, disturbed := [] }

/-- R93, R95 item 3: a command one of whose regions runs past address 0xFFFFFFFF ends at once with ERR_CODE = 2 and FAULT_ADDR
the base of the first such region, A before B; the results and everything else are unchanged. FOLD never does. That the end of a
command empties the model's list of free bytes, `disturbed`, is the model's choice (log entry 3). -/
def Obligations.RangeErrorNamesTheFirstBadRegion : Prop :=
  ErrCode.range.value = 2 ∧
  (∀ (s : State) (i : Instr) (aLen : Nat), Ready s →
    (i = .sum ∨ i = .sum2) ∧ aLen = s.aLen.toNat ∨ (i = .verifyIp ∨ i = .verifyV4) ∧ aLen = 20 ∨
      i = .verifyV6 ∧ aLen = 40 →
    (0 < aLen ∧ 2 ^ 32 < s.aAddr.toNat + aLen →
      exec i s = .next { s with
        status := { busy := false, done := true, err := true, ovr := s.status.ovr, verdict := false, errCode := .range }
        faultAddr := s.aAddr, job := none, phase := .idle, pend := none, disturbed := [] }) ∧
    (¬ (0 < aLen ∧ 2 ^ 32 < s.aAddr.toNat + aLen) → i ≠ .sum →
      0 < s.bLen.toNat ∧ 2 ^ 32 < s.bAddr.toNat + s.bLen.toNat →
      exec i s = .next { s with
        status := { busy := false, done := true, err := true, ovr := s.status.ovr, verdict := false, errCode := .range }
        faultAddr := s.bAddr, job := none, phase := .idle, pend := none, disturbed := [] })) ∧
  (∀ s t : State, Ready s → exec .fold s = .next t → t.status.errCode = .none)

/-- R69, R94: when the read that the engine's step requests gets BUS_ERROR, the command ends in that step: DONE = 1, ERR = 1,
ERR_CODE = 3, VERDICT = 0, BUSY = 0, FAULT_ADDR the address read; results, memory and everything else are unchanged. The model's
choices (log entry 3): a changed address that answers BUS_ERROR ends the command too, and the end of a command empties
`disturbed`. -/
def Obligations.BusErrorEndsTheCommand : Prop :=
  ErrCode.bus.value = 3 ∧
  ∀ (s : State) (a : Nat), s.Inv → readRequest s = some a → s.mem.answer a = .busError →
    a < 2 ^ 32 ∧
    engineStep s = .next { s with
      status := { busy := false, done := true, err := true, ovr := s.status.ovr, verdict := false, errCode := .bus }
      faultAddr := BitVec.ofNat 32 a, job := none, phase := .idle, pend := none, disturbed := [] }

/-! ### The engine's steps -/

/-- R66: a header step latches the byte read at its offset and goes on; the last one has the pseudo-header assembled from the
bytes latched and starts the stream. Which addresses are free (`disturbed`) is the model's choice (log entry 3). -/
def Obligations.HeaderStepLatchesOneByte : Prop :=
  ∀ (s : State) (j : Job) (o : Nat) (b : Byte), s.Inv → s.job = some j → s.phase = .hdr →
    (hdrOffsets j.op)[s.hpos]? = some o → s.mem.answer (j.aAddr.toNat + o) = .ok b → j.aAddr.toNat + o ∉ s.disturbed →
    engineStep s = .next
      (if s.hpos + 1 = (hdrOffsets j.op).length then
        { s with
          hb := s.hb.setIfInBounds o b, hpos := s.hpos + 1
          hph := assemble j.op (s.hb.setIfInBounds o b) j.bLen, phase := .stream }
       else { s with hb := s.hb.setIfInBounds o b, hpos := s.hpos + 1 })

/-- R57, R67: a stream step takes the next byte, of the pseudo-header or of memory: it waits as a high byte if none waits, and
else joins the waiting byte into a word that is accumulated; the last one leads to the completion step. Which addresses are free
(`disturbed`) is the model's choice (log entry 3). That a SUM2 stream can be longer than R25's bound is the model's choice (log
entry 14). -/
def Obligations.StreamStepTakesOneByte : Prop :=
  ∀ (s : State) (j : Job) (b : Byte), s.Inv → s.job = some j → s.phase = .stream →
    (match streamSource j s.pos with
      | .pseudoHeader k => b = byteAt s.hph k
      | .memory a => s.mem.answer a = .ok b ∧ a ∉ s.disturbed) →
    engineStep s = .next { s with
      acc := match s.pend with
        | none => s.acc
        | some hi => accumulate s.acc (BitVec.ofNat 16 (256 * hi.toNat + b.toNat))
      pend := if s.pend = none then some b else none
      pos := s.pos + 1
      phase := if s.pos + 1 = streamLen j then .finish else .stream }

/-- R62, R68: the completion step adds an odd tail byte as a high byte, folds, and writes SUM16, CKSUM, VERDICT and, for the two
payload verifiers, PH and PH_LEN, clears BUSY and sets DONE, all in one step; ERR, ERR_CODE and OVR stay. That the end of a
command empties the model's list of free bytes, `disturbed`, is the model's choice (log entry 3). -/
def Obligations.CompletionStepWritesTheResults : Prop :=
  ∀ (s : State) (j : Job), s.Inv → s.job = some j → s.phase = .finish →
    ∃ (acc : Word) (sum : Half),
      acc = (match s.pend with
        | none => s.acc
        | some b => accumulate s.acc (BitVec.ofNat 16 (256 * b.toNat))) ∧
      sum = fold16 acc ∧
      engineStep s = .next { s with
        acc := acc, pend := none, sum16 := sum, cksum := ~~~sum
        ph := if j.op = .verifyV4 ∨ j.op = .verifyV6 then s.hph else s.ph
        phLen := if j.op = .verifyV4 then 12 else if j.op = .verifyV6 then 40 else s.phLen
        status := { s.status with busy := false, done := true, verdict := decide (~~~sum = 0x0000 ∨ ~~~sum = 0xFFFF) }
        job := none, phase := .idle, disturbed := [] }

/-! ### Arithmetic -/

/-- R60: the fold loop ends within two passes for every 32-bit value, so more passes allowed change nothing, and a value that
already fits is returned as it is; the rule's three examples. -/
def Obligations.FoldEndsWithinTwoPasses : Prop :=
  (∀ v : Word, highHalf (foldLoop 2 v) = 0 ∧ ∀ n, foldLoop (2 + n) v = foldLoop 2 v) ∧
  (∀ v : Word, (foldPass v).toNat = v.toNat % 2 ^ 16 + v.toNat / 2 ^ 16 ∧ (foldPass v).toNat ≤ 0x1FFFE) ∧
  (∀ v : Word, v.toNat < 2 ^ 16 → (fold16 v).toNat = v.toNat) ∧
  fold16 0xFFFFFFFF = 0xFFFF ∧ fold16 0x00010000 = 0x0001 ∧ fold16 0 = 0

/-- R61, R63, R73: the folded value of any 32-bit value `v` is 0 if `v` is 0, else the one value of 1 to 0xFFFF congruent to `v`
modulo 0xFFFF; the checksum is its bit-flip, and the complement is its own inverse on every 16-bit value, with no exception. -/
def Obligations.FoldedValueHasAClosedForm : Prop :=
  (∀ v : Word, (fold16 v).toNat = if v.toNat = 0 then 0 else 1 + (v.toNat - 1) % 0xFFFF) ∧
  (∀ x : Half, complement16 x = ~~~x ∧ complement16 (complement16 x) = x)

/-- R27, R59, R64: with bit 31 of the accumulator 0, the addition of a word never leaves 32 bits, and after the incremental fold
bit 31 is 0 again; a fold leaves at most 0x1FFFE; the value modulo 0xFFFF is that of the plain sum, and it is 0 only if both were. -/
def Obligations.AccumulatorNeverOverflows : Prop :=
  ∀ (acc : Word) (w : Half), acc.getLsbD 31 = false →
    acc.toNat + w.toNat ≤ 0x8000FFFE ∧
    (accumulate acc w).getLsbD 31 = false ∧
    (0x80000000 ≤ acc.toNat + w.toNat → (accumulate acc w).toNat ≤ 0x1FFFE) ∧
    (acc.toNat + w.toNat < 0x80000000 → (accumulate acc w).toNat = acc.toNat + w.toNat) ∧
    (accumulate acc w).toNat % 0xFFFF = (acc.toNat + w.toNat) % 0xFFFF ∧
    ((accumulate acc w) = 0 ↔ acc = 0 ∧ w = 0)

/-- R58, R61, R62, R63: the folded sum, the checksum and the verdict of every stream in closed form, the sum 0 exactly for a stream
of zero bytes, and the checksum 0 exactly for a total that is a non-zero multiple of 0xFFFF. -/
def Obligations.StreamSumHasAClosedForm : Prop :=
  ∀ bs : List Byte,
    (streamSum bs).toNat = closedSum (totalOf (wordsOf bs)) ∧
    (verdictOf (complement16 (streamSum bs)) = true ↔ totalOf (wordsOf bs) % 0xFFFF = 0) ∧
    (complement16 (streamSum bs) = 0xFFFF ↔ ∀ b ∈ bs, b = 0) ∧
    (complement16 (streamSum bs) = 0 ↔ totalOf (wordsOf bs) ≠ 0 ∧ totalOf (wordsOf bs) % 0xFFFF = 0)

/-- R59, R63 (90_conflicts.md C2): any schedule of incremental folds under which no sum leaves 32 bits before its fold, a fold after
every addition included, gives the same folded sum as that of R59; and when the total fits in 32 bits every schedule is such a one,
so that an accumulator that never folds loses no carry. -/
def Obligations.FoldScheduleDoesNotMatter : Prop :=
  (∀ l : List (Half × Bool), fitsThroughout 0 l = true →
    fold16 (l.foldl addThenMaybeFold 0) = fold16 ((l.map Prod.fst).foldl accumulate 0)) ∧
  (∀ l : List (Half × Bool), totalOf (l.map Prod.fst) < 2 ^ 32 → fitsThroughout 0 l = true) ∧
  ∀ ws : List Half, fitsThroughout 0 (ws.map fun w => (w, true)) = true

/-- R63 item 3: reordering whole words does not change the result. -/
def Obligations.WordOrderDoesNotMatter : Prop :=
  ∀ a b : List Byte, (wordsOf a).Perm (wordsOf b) → streamSum a = streamSum b

/-- R64 (90_conflicts.md C1): swapping the two bytes of every word swaps the two bytes of the folded sum. -/
def Obligations.ByteSwapSwapsTheSum : Prop :=
  ∀ ws : List Half,
    fold16 ((ws.map swapBytes).foldl accumulate 0) = swapBytes (fold16 (ws.foldl accumulate 0))

/-- R57, R58, R72: the source's splice algorithm for two buffers accumulates the words of their concatenation, in the same order, so
that SUM2 is SUM over the concatenation for all lengths. -/
def Obligations.SpliceIsConcatenation : Prop :=
  ∀ a b : List Byte, spliceWords a b = wordsOf (a ++ b)

/-- R78 (90_conflicts.md C4): if a stream verifies, changing any one byte of it to any other value makes it fail to verify. -/
def Obligations.SingleByteChangeIsDetected : Prop :=
  ∀ (pre post : List Byte) (x y : Byte), x ≠ y →
    verdictOf (complement16 (streamSum (pre ++ x :: post))) = true →
    verdictOf (complement16 (streamSum (pre ++ y :: post))) = false

/-! ### Pseudo-headers -/

/-- R81, R82, R87: the 12 bytes of the IPv4 pseudo-header, the length field the low 16 bits of B_LEN big-endian, and 28 zero bytes;
the 40 bytes of the IPv6 pseudo-header, which do not depend on B_LEN. -/
def Obligations.PseudoHeaderLayouts : Prop :=
  phLenOf .verifyV4 = 12 ∧ phLenOf .verifyV6 = 40 ∧
  ∀ (hb : Vector Byte 40) (len : Word),
    (assemble .verifyV4 hb len).toList =
      [byteAt hb 12, byteAt hb 13, byteAt hb 14, byteAt hb 15, byteAt hb 16, byteAt hb 17, byteAt hb 18, byteAt hb 19,
        0x00, byteAt hb 9, BitVec.ofNat 8 (len.toNat % 2 ^ 16 / 256), BitVec.ofNat 8 (len.toNat % 256)] ++
      List.replicate 28 0x00 ∧
    (assemble .verifyV6 hb len).toList =
      (List.range 16).map (fun k => byteAt hb (8 + k)) ++ (List.range 16).map (fun k => byteAt hb (24 + k)) ++
      [0x00, 0x00, byteAt hb 4, byteAt hb 5, 0x00, 0x00, 0x00, byteAt hb 6]

/-- R88: with the two copied length bytes at the front of the 4-byte field, the sum over pseudo-header and payload is the same. -/
def Obligations.IPv6LengthPlacementDoesNotMatter : Prop :=
  ∀ (addresses payload : List Byte) (hi lo next : Byte), addresses.length = 32 →
    streamSum (addresses ++ [0x00, 0x00, hi, lo, 0x00, 0x00, 0x00, next] ++ payload) =
      streamSum (addresses ++ [hi, lo, 0x00, 0x00, 0x00, 0x00, 0x00, next] ++ payload)

/-! ### Whole runs -/

/-- R70, R71: SUM over a buffer whose bytes the platform answers ends after exactly `A_LEN + 1` engine steps with the checksum
of those bytes; PH and PH_LEN stay. The host has made its writes visible (`hidden = []`, log entry 3). -/
def Obligations.SumRunGivesTheChecksum : Prop :=
  ∀ (s : State) (bs : List Byte), Ready s → s.hidden = [] →
    (s.aLen = 0 ∨ s.aAddr.toNat + s.aLen.toNat ≤ 2 ^ 32) → bytesAt s.mem s.aAddr.toNat s.aLen.toNat = some bs →
    ∃ t u, exec .sum s = .next t ∧ RunsExactly (s.aLen.toNat + 1) t u ∧ EndedWith s u bs ∧
      u.ph = s.ph ∧ u.phLen = s.phLen

/-- R70, R72: SUM2 gives the checksum of the two buffers' bytes as one stream, after exactly `A_LEN + B_LEN + 1` steps. The host
has made its writes visible (`hidden = []`, log entry 3). That a SUM2 stream can be longer than R25's bound is the model's
choice (log entry 14). -/
def Obligations.Sum2RunGivesTheChecksum : Prop :=
  ∀ (s : State) (as bs : List Byte), Ready s → s.hidden = [] →
    (s.aLen = 0 ∨ s.aAddr.toNat + s.aLen.toNat ≤ 2 ^ 32) → (s.bLen = 0 ∨ s.bAddr.toNat + s.bLen.toNat ≤ 2 ^ 32) →
    bytesAt s.mem s.aAddr.toNat s.aLen.toNat = some as → bytesAt s.mem s.bAddr.toNat s.bLen.toNat = some bs →
    ∃ t u, exec .sum2 s = .next t ∧ RunsExactly (s.aLen.toNat + s.bLen.toNat + 1) t u ∧ EndedWith s u (as ++ bs) ∧
      u.ph = s.ph ∧ u.phLen = s.phLen

/-- R70, R73: FOLD ends after exactly one engine step with ACC_IN folded, its complement and verdict; it reads no memory, so no
address register matters. -/
def Obligations.FoldRunFoldsAccIn : Prop :=
  ∀ s : State, Ready s → ∃ t u, exec .fold s = .next t ∧ RunsExactly 1 t u ∧
    u.sum16 = BitVec.ofNat 16 (closedSum s.accIn.toNat) ∧ u.cksum = ~~~u.sum16 ∧
    u.status = { busy := false, done := true, err := false, ovr := s.status.ovr,
                 verdict := decide (s.accIn.toNat % 0xFFFF = 0), errCode := .none } ∧
    u.job = none ∧ u.phase = .idle ∧ u.faultAddr = s.faultAddr ∧ SameOperands s u ∧ SameOutside s u ∧
    u.ph = s.ph ∧ u.phLen = s.phLen

/-- R70, R75, R76: VERIFY_IP gives the checksum of the 20 header bytes, the embedded checksum field as stored, and the options,
after exactly `20 + B_LEN + 1` steps. The host has made its writes visible (`hidden = []`, log entry 3). -/
def Obligations.VerifyIpRunChecksTheHeader : Prop :=
  ∀ (s : State) (hdr opts : List Byte), Ready s → s.hidden = [] → s.aAddr.toNat + 20 ≤ 2 ^ 32 →
    (s.bLen = 0 ∨ s.bAddr.toNat + s.bLen.toNat ≤ 2 ^ 32) →
    bytesAt s.mem s.aAddr.toNat 20 = some hdr → bytesAt s.mem s.bAddr.toNat s.bLen.toNat = some opts →
    ∃ t u, exec .verifyIp s = .next t ∧ RunsExactly (20 + s.bLen.toNat + 1) t u ∧ EndedWith s u (hdr ++ opts) ∧
      u.ph = s.ph ∧ u.phLen = s.phLen

/-- R70, R83: VERIFY_V4 gives the checksum of the 12-byte pseudo-header, assembled from the header in memory and B_LEN, and the
payload, after exactly `9 + 12 + B_LEN + 1` steps; PH and PH_LEN show the pseudo-header. The host has made its writes visible
(`hidden = []`, log entry 3). -/
def Obligations.VerifyV4RunChecksThePayload : Prop :=
  ∀ (s : State) (hb : Vector Byte 40) (payload : List Byte), Ready s → s.hidden = [] → s.aAddr.toNat + 20 ≤ 2 ^ 32 →
    (s.bLen = 0 ∨ s.bAddr.toNat + s.bLen.toNat ≤ 2 ^ 32) →
    headerBytesAt s.mem s.aAddr.toNat .verifyV4 hb = true →
    bytesAt s.mem s.bAddr.toNat s.bLen.toNat = some payload →
    ∃ t u, exec .verifyV4 s = .next t ∧ RunsExactly (9 + (12 + s.bLen.toNat) + 1) t u ∧
      EndedWith s u ((assembleV4 hb s.bLen).toList.take 12 ++ payload) ∧
      u.ph = assembleV4 hb s.bLen ∧ u.phLen = 12

/-- R70, R89: VERIFY_V6 gives the checksum of the 40-byte pseudo-header, assembled from the header in memory, and the payload,
after exactly `35 + 40 + B_LEN + 1` steps; PH and PH_LEN show the pseudo-header. The host has made its writes visible (`hidden =
[]`, log entry 3). -/
def Obligations.VerifyV6RunChecksThePayload : Prop :=
  ∀ (s : State) (hb : Vector Byte 40) (payload : List Byte), Ready s → s.hidden = [] → s.aAddr.toNat + 40 ≤ 2 ^ 32 →
    (s.bLen = 0 ∨ s.bAddr.toNat + s.bLen.toNat ≤ 2 ^ 32) →
    headerBytesAt s.mem s.aAddr.toNat .verifyV6 hb = true →
    bytesAt s.mem s.bAddr.toNat s.bLen.toNat = some payload →
    ∃ t u, exec .verifyV6 s = .next t ∧ RunsExactly (35 + (40 + s.bLen.toNat) + 1) t u ∧
      EndedWith s u ((assembleV6 hb).toList ++ payload) ∧
      u.ph = assembleV6 hb ∧ u.phLen = 40

/-- R71, R94, R97: a SUM whose `k`-th byte is the first that the platform refuses ends after exactly `k + 1` engine steps with
ERR_CODE = BUS and FAULT_ADDR that byte's address; the results are those from before the command. The host has made its writes
visible (`hidden = []`, log entry 3). -/
def Obligations.SumRunStopsAtTheFirstBusError : Prop :=
  ∀ (s : State) (k : Nat) (bs : List Byte), Ready s → s.hidden = [] → k < s.aLen.toNat →
    s.aAddr.toNat + s.aLen.toNat ≤ 2 ^ 32 → bytesAt s.mem s.aAddr.toNat k = some bs →
    s.mem.answer (s.aAddr.toNat + k) = .busError →
    ∃ t u, exec .sum s = .next t ∧ RunsExactly (k + 1) t u ∧
      u.status = { busy := false, done := true, err := true, ovr := s.status.ovr, verdict := false, errCode := .bus } ∧
      u.faultAddr = s.aAddr + BitVec.ofNat 32 k ∧ u.job = none ∧ u.phase = .idle ∧
      SameOperands s u ∧ SameResults s u ∧ SameOutside s u

/-- R70: whatever the platform answers, a running command ends, with DONE = 1, within the steps it has left if no read fails,
and after exactly those if it ends without an error. That a SUM2 stream can be longer than R25's bound is the model's choice
(log entry 14). -/
def Obligations.EveryRunningCommandEnds : Prop :=
  ∀ (s : State) (j : Job), s.Inv → s.job = some j →
    ∃ n u, n ≤ stepsLeft j s ∧ RunsExactly n s u ∧ u.status.busy = false ∧ u.status.done = true ∧
      (u.status.err = false → n = stepsLeft j s)

/-- R9, R28, R45, R65, R109: whatever the host does between the engine's steps short of reset and of changing the command's
regions (register writes, CMD writes among them, reads, polls, memory changes elsewhere), in any interleaving, the command's run
is that of the engine alone: after the engine's `n`-th turn, every hidden and result register, FAULT_ADDR, BUSY, DONE, ERR,
ERR_CODE and VERDICT are what `n` turns of the engine alone give. How stores and POLL act is log entries 1, 3 and 7. -/
def Obligations.HostTrafficDoesNotChangeARun : Prop :=
  ∀ (s u : State) (j : Job) (n : Nat), s.Inv → s.job = some j → s.host.all (respects j) = true →
    s.turns.getLast? = some .engine → s.turns.count .engine = n → RunsExactly n s u →
    ∃ t, Host.Core.run Sys2Proof.core s.turns.length s = .next t ∧
      t.job = u.job ∧ t.phase = u.phase ∧ t.acc = u.acc ∧ t.pend = u.pend ∧ t.pos = u.pos ∧ t.hpos = u.hpos ∧
      t.hb = u.hb ∧ t.hph = u.hph ∧ SameResults u t ∧ t.faultAddr = u.faultAddr ∧
      t.status = { u.status with ovr := t.status.ovr }

/-- R28, R111: while a command runs, no step of host or engine that leaves it running changes a result register or FAULT_ADDR, and
VERDICT reads 0. -/
def Obligations.ResultsHoldWhileBusy : Prop :=
  ∀ s t : State, s.Inv → s.status.busy = true → step s = .next t → t.status.busy = true →
    SameResults s t ∧ t.faultAddr = s.faultAddr ∧ t.status.verdict = false ∧ t.status.done = false

/-- R20, R97: an error is precise: a step that sets ERR, or a CMD write to the idle block after which ERR is 1 (set by it, since
acceptance clears ERR), changes no result register, no operand register and no memory byte. -/
def Obligations.ErrorChangesNoResult : Prop :=
  ∀ s t : State, step s = .next t →
    (s.status.err = false ∨
      Ready s ∧ ∃ (c : Word) (rest : List HostOp) (turns : List Agent),
        nextTurn s = (.host, turns) ∧ s.host = .wr 2 c :: rest) →
    t.status.err = true →
    SameResults s t ∧ SameOperands s t ∧ t.status.done = true ∧ t.status.busy = false ∧
      ∀ a, t.mem.answer a = s.mem.answer a

/-- R22: FAULT_ADDR changes only in a step that ends a command with RANGE, which is a CMD write to the idle block, or with BUS,
which is a turn of the engine while BUSY = 1, or in the step that asserts reset. -/
def Obligations.FaultAddrIsWrittenByRangeAndBus : Prop :=
  ∀ s t : State, step s = .next t → t.faultAddr ≠ s.faultAddr →
    (∃ (c : Word) (rest : List HostOp) (turns : List Agent),
      nextTurn s = (.host, turns) ∧ s.host = .wr 2 c :: rest ∧ Ready s ∧
        t.status = { busy := false, done := true, err := true, ovr := s.status.ovr, verdict := false, errCode := .range }) ∨
    (∃ turns : List Agent, nextTurn s = (.engine, turns) ∧ s.status.busy = true ∧
      t.status.busy = false ∧ t.status.done = true ∧ t.status.err = true ∧ t.status.errCode = .bus) ∨
    (∃ (rest : List HostOp) (turns : List Agent),
      nextTurn s = (.host, turns) ∧ s.host = .assertReset :: rest ∧ t.faultAddr = 0)

/-- R20, R21, R23, R24: SUM16, CKSUM, PH and PH_LEN change only in the completion step of a running command, a turn of the engine, PH
and PH_LEN only in that of VERIFY_V4 or VERIFY_V6, or in the step that asserts reset. -/
def Obligations.ResultsAreWrittenByCompletion : Prop :=
  ∀ s t : State, step s = .next t → ¬ SameResults s t →
    (∃ (j : Job) (turns : List Agent), nextTurn s = (.engine, turns) ∧ s.status.busy = true ∧ s.job = some j ∧
      s.phase = .finish ∧ t.status.done = true ∧ t.status.busy = false ∧
      (t.ph ≠ s.ph ∨ t.phLen ≠ s.phLen → j.op = .verifyV4 ∨ j.op = .verifyV6)) ∨
    (∃ (rest : List HostOp) (turns : List Agent), nextTurn s = (.host, turns) ∧ s.host = .assertReset :: rest)

/-! ### The invariant -/

/-- R29: the invariant holds at reset. Its clauses on memory and free bytes rest on the reset values of log entries 1, 3 and 4.
-/
def Obligations.ResetKeepsTheInvariant : Prop := State.reset.Inv

/-- R14, R16, R21, R23, R24, R26, R27, R31, R106: every step keeps the invariant, whichever agent takes it and whatever the host
does. Its clauses on free bytes and on what reset leaves alone are the model's choices (log entries 3 and 12). That a SUM2
stream can be longer than R25's bound is the model's choice (log entry 14). -/
def Obligations.EveryStepKeepsTheInvariant : Prop :=
  ∀ s t : State, s.Inv → step s = .next t → t.Inv

/-- R70, R93: no step from a state with the invariant stops: neither a fault nor a refusal is reached. The stops it rules out
are the model's own (log entry 9). -/
def Obligations.NoReachableStepStops : Prop :=
  ∀ s : State, s.Inv → ∃ t, step s = .next t
end

