-- ==== Sys2Proof/Laws/State.lean ====
section
/-! SUPPORT. One lemma per field per named update of the state, each true by rfl, so that no proof unfolds a record update. -/

namespace Sys2Proof.Machine

/-! ### State.setStatus (R14) -/

@[simp] theorem State.setStatus_irqEn (x : Status) (s : State) : (s.setStatus x).irqEn = s.irqEn := rfl
@[simp] theorem State.setStatus_status (x : Status) (s : State) : (s.setStatus x).status = x := rfl
@[simp] theorem State.setStatus_aAddr (x : Status) (s : State) : (s.setStatus x).aAddr = s.aAddr := rfl
@[simp] theorem State.setStatus_aLen (x : Status) (s : State) : (s.setStatus x).aLen = s.aLen := rfl
@[simp] theorem State.setStatus_bAddr (x : Status) (s : State) : (s.setStatus x).bAddr = s.bAddr := rfl
@[simp] theorem State.setStatus_bLen (x : Status) (s : State) : (s.setStatus x).bLen = s.bLen := rfl
@[simp] theorem State.setStatus_accIn (x : Status) (s : State) : (s.setStatus x).accIn = s.accIn := rfl
@[simp] theorem State.setStatus_sum16 (x : Status) (s : State) : (s.setStatus x).sum16 = s.sum16 := rfl
@[simp] theorem State.setStatus_cksum (x : Status) (s : State) : (s.setStatus x).cksum = s.cksum := rfl
@[simp] theorem State.setStatus_faultAddr (x : Status) (s : State) : (s.setStatus x).faultAddr = s.faultAddr := rfl
@[simp] theorem State.setStatus_phLen (x : Status) (s : State) : (s.setStatus x).phLen = s.phLen := rfl
@[simp] theorem State.setStatus_ph (x : Status) (s : State) : (s.setStatus x).ph = s.ph := rfl
@[simp] theorem State.setStatus_job (x : Status) (s : State) : (s.setStatus x).job = s.job := rfl
@[simp] theorem State.setStatus_phase (x : Status) (s : State) : (s.setStatus x).phase = s.phase := rfl
@[simp] theorem State.setStatus_acc (x : Status) (s : State) : (s.setStatus x).acc = s.acc := rfl
@[simp] theorem State.setStatus_pend (x : Status) (s : State) : (s.setStatus x).pend = s.pend := rfl
@[simp] theorem State.setStatus_pos (x : Status) (s : State) : (s.setStatus x).pos = s.pos := rfl
@[simp] theorem State.setStatus_hpos (x : Status) (s : State) : (s.setStatus x).hpos = s.hpos := rfl
@[simp] theorem State.setStatus_hb (x : Status) (s : State) : (s.setStatus x).hb = s.hb := rfl
@[simp] theorem State.setStatus_hph (x : Status) (s : State) : (s.setStatus x).hph = s.hph := rfl
@[simp] theorem State.setStatus_inReset (x : Status) (s : State) : (s.setStatus x).inReset = s.inReset := rfl
@[simp] theorem State.setStatus_mem (x : Status) (s : State) : (s.setStatus x).mem = s.mem := rfl
@[simp] theorem State.setStatus_hidden (x : Status) (s : State) : (s.setStatus x).hidden = s.hidden := rfl
@[simp] theorem State.setStatus_disturbed (x : Status) (s : State) : (s.setStatus x).disturbed = s.disturbed := rfl
@[simp] theorem State.setStatus_draws (x : Status) (s : State) : (s.setStatus x).draws = s.draws := rfl
@[simp] theorem State.setStatus_host (x : Status) (s : State) : (s.setStatus x).host = s.host := rfl
@[simp] theorem State.setStatus_turns (x : Status) (s : State) : (s.setStatus x).turns = s.turns := rfl
@[simp] theorem State.setStatus_lastRead (x : Status) (s : State) : (s.setStatus x).lastRead = s.lastRead := rfl

/-! ### State.setDraws (R43) -/

@[simp] theorem State.setDraws_irqEn (n : Nat) (s : State) : (s.setDraws n).irqEn = s.irqEn := rfl
@[simp] theorem State.setDraws_status (n : Nat) (s : State) : (s.setDraws n).status = s.status := rfl
@[simp] theorem State.setDraws_aAddr (n : Nat) (s : State) : (s.setDraws n).aAddr = s.aAddr := rfl
@[simp] theorem State.setDraws_aLen (n : Nat) (s : State) : (s.setDraws n).aLen = s.aLen := rfl
@[simp] theorem State.setDraws_bAddr (n : Nat) (s : State) : (s.setDraws n).bAddr = s.bAddr := rfl
@[simp] theorem State.setDraws_bLen (n : Nat) (s : State) : (s.setDraws n).bLen = s.bLen := rfl
@[simp] theorem State.setDraws_accIn (n : Nat) (s : State) : (s.setDraws n).accIn = s.accIn := rfl
@[simp] theorem State.setDraws_sum16 (n : Nat) (s : State) : (s.setDraws n).sum16 = s.sum16 := rfl
@[simp] theorem State.setDraws_cksum (n : Nat) (s : State) : (s.setDraws n).cksum = s.cksum := rfl
@[simp] theorem State.setDraws_faultAddr (n : Nat) (s : State) : (s.setDraws n).faultAddr = s.faultAddr := rfl
@[simp] theorem State.setDraws_phLen (n : Nat) (s : State) : (s.setDraws n).phLen = s.phLen := rfl
@[simp] theorem State.setDraws_ph (n : Nat) (s : State) : (s.setDraws n).ph = s.ph := rfl
@[simp] theorem State.setDraws_job (n : Nat) (s : State) : (s.setDraws n).job = s.job := rfl
@[simp] theorem State.setDraws_phase (n : Nat) (s : State) : (s.setDraws n).phase = s.phase := rfl
@[simp] theorem State.setDraws_acc (n : Nat) (s : State) : (s.setDraws n).acc = s.acc := rfl
@[simp] theorem State.setDraws_pend (n : Nat) (s : State) : (s.setDraws n).pend = s.pend := rfl
@[simp] theorem State.setDraws_pos (n : Nat) (s : State) : (s.setDraws n).pos = s.pos := rfl
@[simp] theorem State.setDraws_hpos (n : Nat) (s : State) : (s.setDraws n).hpos = s.hpos := rfl
@[simp] theorem State.setDraws_hb (n : Nat) (s : State) : (s.setDraws n).hb = s.hb := rfl
@[simp] theorem State.setDraws_hph (n : Nat) (s : State) : (s.setDraws n).hph = s.hph := rfl
@[simp] theorem State.setDraws_inReset (n : Nat) (s : State) : (s.setDraws n).inReset = s.inReset := rfl
@[simp] theorem State.setDraws_mem (n : Nat) (s : State) : (s.setDraws n).mem = s.mem := rfl
@[simp] theorem State.setDraws_hidden (n : Nat) (s : State) : (s.setDraws n).hidden = s.hidden := rfl
@[simp] theorem State.setDraws_disturbed (n : Nat) (s : State) : (s.setDraws n).disturbed = s.disturbed := rfl
@[simp] theorem State.setDraws_draws (n : Nat) (s : State) : (s.setDraws n).draws = n := rfl
@[simp] theorem State.setDraws_host (n : Nat) (s : State) : (s.setDraws n).host = s.host := rfl
@[simp] theorem State.setDraws_turns (n : Nat) (s : State) : (s.setDraws n).turns = s.turns := rfl
@[simp] theorem State.setDraws_lastRead (n : Nat) (s : State) : (s.setDraws n).lastRead = s.lastRead := rfl

/-! ### State.setHost (R45) -/

@[simp] theorem State.setHost_irqEn (l : List HostOp) (s : State) : (s.setHost l).irqEn = s.irqEn := rfl
@[simp] theorem State.setHost_status (l : List HostOp) (s : State) : (s.setHost l).status = s.status := rfl
@[simp] theorem State.setHost_aAddr (l : List HostOp) (s : State) : (s.setHost l).aAddr = s.aAddr := rfl
@[simp] theorem State.setHost_aLen (l : List HostOp) (s : State) : (s.setHost l).aLen = s.aLen := rfl
@[simp] theorem State.setHost_bAddr (l : List HostOp) (s : State) : (s.setHost l).bAddr = s.bAddr := rfl
@[simp] theorem State.setHost_bLen (l : List HostOp) (s : State) : (s.setHost l).bLen = s.bLen := rfl
@[simp] theorem State.setHost_accIn (l : List HostOp) (s : State) : (s.setHost l).accIn = s.accIn := rfl
@[simp] theorem State.setHost_sum16 (l : List HostOp) (s : State) : (s.setHost l).sum16 = s.sum16 := rfl
@[simp] theorem State.setHost_cksum (l : List HostOp) (s : State) : (s.setHost l).cksum = s.cksum := rfl
@[simp] theorem State.setHost_faultAddr (l : List HostOp) (s : State) : (s.setHost l).faultAddr = s.faultAddr := rfl
@[simp] theorem State.setHost_phLen (l : List HostOp) (s : State) : (s.setHost l).phLen = s.phLen := rfl
@[simp] theorem State.setHost_ph (l : List HostOp) (s : State) : (s.setHost l).ph = s.ph := rfl
@[simp] theorem State.setHost_job (l : List HostOp) (s : State) : (s.setHost l).job = s.job := rfl
@[simp] theorem State.setHost_phase (l : List HostOp) (s : State) : (s.setHost l).phase = s.phase := rfl
@[simp] theorem State.setHost_acc (l : List HostOp) (s : State) : (s.setHost l).acc = s.acc := rfl
@[simp] theorem State.setHost_pend (l : List HostOp) (s : State) : (s.setHost l).pend = s.pend := rfl
@[simp] theorem State.setHost_pos (l : List HostOp) (s : State) : (s.setHost l).pos = s.pos := rfl
@[simp] theorem State.setHost_hpos (l : List HostOp) (s : State) : (s.setHost l).hpos = s.hpos := rfl
@[simp] theorem State.setHost_hb (l : List HostOp) (s : State) : (s.setHost l).hb = s.hb := rfl
@[simp] theorem State.setHost_hph (l : List HostOp) (s : State) : (s.setHost l).hph = s.hph := rfl
@[simp] theorem State.setHost_inReset (l : List HostOp) (s : State) : (s.setHost l).inReset = s.inReset := rfl
@[simp] theorem State.setHost_mem (l : List HostOp) (s : State) : (s.setHost l).mem = s.mem := rfl
@[simp] theorem State.setHost_hidden (l : List HostOp) (s : State) : (s.setHost l).hidden = s.hidden := rfl
@[simp] theorem State.setHost_disturbed (l : List HostOp) (s : State) : (s.setHost l).disturbed = s.disturbed := rfl
@[simp] theorem State.setHost_draws (l : List HostOp) (s : State) : (s.setHost l).draws = s.draws := rfl
@[simp] theorem State.setHost_host (l : List HostOp) (s : State) : (s.setHost l).host = l := rfl
@[simp] theorem State.setHost_turns (l : List HostOp) (s : State) : (s.setHost l).turns = s.turns := rfl
@[simp] theorem State.setHost_lastRead (l : List HostOp) (s : State) : (s.setHost l).lastRead = s.lastRead := rfl

/-! ### State.setTurns (R9) -/

@[simp] theorem State.setTurns_irqEn (l : List Agent) (s : State) : (s.setTurns l).irqEn = s.irqEn := rfl
@[simp] theorem State.setTurns_status (l : List Agent) (s : State) : (s.setTurns l).status = s.status := rfl
@[simp] theorem State.setTurns_aAddr (l : List Agent) (s : State) : (s.setTurns l).aAddr = s.aAddr := rfl
@[simp] theorem State.setTurns_aLen (l : List Agent) (s : State) : (s.setTurns l).aLen = s.aLen := rfl
@[simp] theorem State.setTurns_bAddr (l : List Agent) (s : State) : (s.setTurns l).bAddr = s.bAddr := rfl
@[simp] theorem State.setTurns_bLen (l : List Agent) (s : State) : (s.setTurns l).bLen = s.bLen := rfl
@[simp] theorem State.setTurns_accIn (l : List Agent) (s : State) : (s.setTurns l).accIn = s.accIn := rfl
@[simp] theorem State.setTurns_sum16 (l : List Agent) (s : State) : (s.setTurns l).sum16 = s.sum16 := rfl
@[simp] theorem State.setTurns_cksum (l : List Agent) (s : State) : (s.setTurns l).cksum = s.cksum := rfl
@[simp] theorem State.setTurns_faultAddr (l : List Agent) (s : State) : (s.setTurns l).faultAddr = s.faultAddr := rfl
@[simp] theorem State.setTurns_phLen (l : List Agent) (s : State) : (s.setTurns l).phLen = s.phLen := rfl
@[simp] theorem State.setTurns_ph (l : List Agent) (s : State) : (s.setTurns l).ph = s.ph := rfl
@[simp] theorem State.setTurns_job (l : List Agent) (s : State) : (s.setTurns l).job = s.job := rfl
@[simp] theorem State.setTurns_phase (l : List Agent) (s : State) : (s.setTurns l).phase = s.phase := rfl
@[simp] theorem State.setTurns_acc (l : List Agent) (s : State) : (s.setTurns l).acc = s.acc := rfl
@[simp] theorem State.setTurns_pend (l : List Agent) (s : State) : (s.setTurns l).pend = s.pend := rfl
@[simp] theorem State.setTurns_pos (l : List Agent) (s : State) : (s.setTurns l).pos = s.pos := rfl
@[simp] theorem State.setTurns_hpos (l : List Agent) (s : State) : (s.setTurns l).hpos = s.hpos := rfl
@[simp] theorem State.setTurns_hb (l : List Agent) (s : State) : (s.setTurns l).hb = s.hb := rfl
@[simp] theorem State.setTurns_hph (l : List Agent) (s : State) : (s.setTurns l).hph = s.hph := rfl
@[simp] theorem State.setTurns_inReset (l : List Agent) (s : State) : (s.setTurns l).inReset = s.inReset := rfl
@[simp] theorem State.setTurns_mem (l : List Agent) (s : State) : (s.setTurns l).mem = s.mem := rfl
@[simp] theorem State.setTurns_hidden (l : List Agent) (s : State) : (s.setTurns l).hidden = s.hidden := rfl
@[simp] theorem State.setTurns_disturbed (l : List Agent) (s : State) : (s.setTurns l).disturbed = s.disturbed := rfl
@[simp] theorem State.setTurns_draws (l : List Agent) (s : State) : (s.setTurns l).draws = s.draws := rfl
@[simp] theorem State.setTurns_host (l : List Agent) (s : State) : (s.setTurns l).host = s.host := rfl
@[simp] theorem State.setTurns_turns (l : List Agent) (s : State) : (s.setTurns l).turns = l := rfl
@[simp] theorem State.setTurns_lastRead (l : List Agent) (s : State) : (s.setTurns l).lastRead = s.lastRead := rfl

/-! ### State.setLastRead (R55) -/

@[simp] theorem State.setLastRead_irqEn (v : Word) (s : State) : (s.setLastRead v).irqEn = s.irqEn := rfl
@[simp] theorem State.setLastRead_status (v : Word) (s : State) : (s.setLastRead v).status = s.status := rfl
@[simp] theorem State.setLastRead_aAddr (v : Word) (s : State) : (s.setLastRead v).aAddr = s.aAddr := rfl
@[simp] theorem State.setLastRead_aLen (v : Word) (s : State) : (s.setLastRead v).aLen = s.aLen := rfl
@[simp] theorem State.setLastRead_bAddr (v : Word) (s : State) : (s.setLastRead v).bAddr = s.bAddr := rfl
@[simp] theorem State.setLastRead_bLen (v : Word) (s : State) : (s.setLastRead v).bLen = s.bLen := rfl
@[simp] theorem State.setLastRead_accIn (v : Word) (s : State) : (s.setLastRead v).accIn = s.accIn := rfl
@[simp] theorem State.setLastRead_sum16 (v : Word) (s : State) : (s.setLastRead v).sum16 = s.sum16 := rfl
@[simp] theorem State.setLastRead_cksum (v : Word) (s : State) : (s.setLastRead v).cksum = s.cksum := rfl
@[simp] theorem State.setLastRead_faultAddr (v : Word) (s : State) : (s.setLastRead v).faultAddr = s.faultAddr := rfl
@[simp] theorem State.setLastRead_phLen (v : Word) (s : State) : (s.setLastRead v).phLen = s.phLen := rfl
@[simp] theorem State.setLastRead_ph (v : Word) (s : State) : (s.setLastRead v).ph = s.ph := rfl
@[simp] theorem State.setLastRead_job (v : Word) (s : State) : (s.setLastRead v).job = s.job := rfl
@[simp] theorem State.setLastRead_phase (v : Word) (s : State) : (s.setLastRead v).phase = s.phase := rfl
@[simp] theorem State.setLastRead_acc (v : Word) (s : State) : (s.setLastRead v).acc = s.acc := rfl
@[simp] theorem State.setLastRead_pend (v : Word) (s : State) : (s.setLastRead v).pend = s.pend := rfl
@[simp] theorem State.setLastRead_pos (v : Word) (s : State) : (s.setLastRead v).pos = s.pos := rfl
@[simp] theorem State.setLastRead_hpos (v : Word) (s : State) : (s.setLastRead v).hpos = s.hpos := rfl
@[simp] theorem State.setLastRead_hb (v : Word) (s : State) : (s.setLastRead v).hb = s.hb := rfl
@[simp] theorem State.setLastRead_hph (v : Word) (s : State) : (s.setLastRead v).hph = s.hph := rfl
@[simp] theorem State.setLastRead_inReset (v : Word) (s : State) : (s.setLastRead v).inReset = s.inReset := rfl
@[simp] theorem State.setLastRead_mem (v : Word) (s : State) : (s.setLastRead v).mem = s.mem := rfl
@[simp] theorem State.setLastRead_hidden (v : Word) (s : State) : (s.setLastRead v).hidden = s.hidden := rfl
@[simp] theorem State.setLastRead_disturbed (v : Word) (s : State) : (s.setLastRead v).disturbed = s.disturbed := rfl
@[simp] theorem State.setLastRead_draws (v : Word) (s : State) : (s.setLastRead v).draws = s.draws := rfl
@[simp] theorem State.setLastRead_host (v : Word) (s : State) : (s.setLastRead v).host = s.host := rfl
@[simp] theorem State.setLastRead_turns (v : Word) (s : State) : (s.setLastRead v).turns = s.turns := rfl
@[simp] theorem State.setLastRead_lastRead (v : Word) (s : State) : (s.setLastRead v).lastRead = some v := rfl

/-! ### endError (R69) -/

@[simp] theorem endError_irqEn (c : ErrCode) (a : Option Word) (s : State) : (endError c a s).irqEn = s.irqEn := rfl
@[simp] theorem endError_status (c : ErrCode) (a : Option Word) (s : State) : (endError c a s).status = s.status.endError c := rfl
@[simp] theorem endError_aAddr (c : ErrCode) (a : Option Word) (s : State) : (endError c a s).aAddr = s.aAddr := rfl
@[simp] theorem endError_aLen (c : ErrCode) (a : Option Word) (s : State) : (endError c a s).aLen = s.aLen := rfl
@[simp] theorem endError_bAddr (c : ErrCode) (a : Option Word) (s : State) : (endError c a s).bAddr = s.bAddr := rfl
@[simp] theorem endError_bLen (c : ErrCode) (a : Option Word) (s : State) : (endError c a s).bLen = s.bLen := rfl
@[simp] theorem endError_accIn (c : ErrCode) (a : Option Word) (s : State) : (endError c a s).accIn = s.accIn := rfl
@[simp] theorem endError_sum16 (c : ErrCode) (a : Option Word) (s : State) : (endError c a s).sum16 = s.sum16 := rfl
@[simp] theorem endError_cksum (c : ErrCode) (a : Option Word) (s : State) : (endError c a s).cksum = s.cksum := rfl
@[simp] theorem endError_faultAddr (c : ErrCode) (a : Option Word) (s : State) :
    (endError c a s).faultAddr =
      a.getD s.faultAddr := rfl
@[simp] theorem endError_phLen (c : ErrCode) (a : Option Word) (s : State) : (endError c a s).phLen = s.phLen := rfl
@[simp] theorem endError_ph (c : ErrCode) (a : Option Word) (s : State) : (endError c a s).ph = s.ph := rfl
@[simp] theorem endError_job (c : ErrCode) (a : Option Word) (s : State) : (endError c a s).job = none := rfl
@[simp] theorem endError_phase (c : ErrCode) (a : Option Word) (s : State) : (endError c a s).phase = .idle := rfl
@[simp] theorem endError_acc (c : ErrCode) (a : Option Word) (s : State) : (endError c a s).acc = s.acc := rfl
@[simp] theorem endError_pend (c : ErrCode) (a : Option Word) (s : State) : (endError c a s).pend = none := rfl
@[simp] theorem endError_pos (c : ErrCode) (a : Option Word) (s : State) : (endError c a s).pos = s.pos := rfl
@[simp] theorem endError_hpos (c : ErrCode) (a : Option Word) (s : State) : (endError c a s).hpos = s.hpos := rfl
@[simp] theorem endError_hb (c : ErrCode) (a : Option Word) (s : State) : (endError c a s).hb = s.hb := rfl
@[simp] theorem endError_hph (c : ErrCode) (a : Option Word) (s : State) : (endError c a s).hph = s.hph := rfl
@[simp] theorem endError_inReset (c : ErrCode) (a : Option Word) (s : State) : (endError c a s).inReset = s.inReset := rfl
@[simp] theorem endError_mem (c : ErrCode) (a : Option Word) (s : State) : (endError c a s).mem = s.mem := rfl
@[simp] theorem endError_hidden (c : ErrCode) (a : Option Word) (s : State) : (endError c a s).hidden = s.hidden := rfl
@[simp] theorem endError_disturbed (c : ErrCode) (a : Option Word) (s : State) : (endError c a s).disturbed = [] := rfl
@[simp] theorem endError_draws (c : ErrCode) (a : Option Word) (s : State) : (endError c a s).draws = s.draws := rfl
@[simp] theorem endError_host (c : ErrCode) (a : Option Word) (s : State) : (endError c a s).host = s.host := rfl
@[simp] theorem endError_turns (c : ErrCode) (a : Option Word) (s : State) : (endError c a s).turns = s.turns := rfl
@[simp] theorem endError_lastRead (c : ErrCode) (a : Option Word) (s : State) : (endError c a s).lastRead = s.lastRead := rfl

/-! ### acknowledge (R15) -/

@[simp] theorem acknowledge_irqEn (v : Word) (s : State) : (acknowledge v s).irqEn = s.irqEn := rfl
@[simp] theorem acknowledge_status (v : Word) (s : State) : (acknowledge v s).status = s.status.clearBits v := rfl
@[simp] theorem acknowledge_aAddr (v : Word) (s : State) : (acknowledge v s).aAddr = s.aAddr := rfl
@[simp] theorem acknowledge_aLen (v : Word) (s : State) : (acknowledge v s).aLen = s.aLen := rfl
@[simp] theorem acknowledge_bAddr (v : Word) (s : State) : (acknowledge v s).bAddr = s.bAddr := rfl
@[simp] theorem acknowledge_bLen (v : Word) (s : State) : (acknowledge v s).bLen = s.bLen := rfl
@[simp] theorem acknowledge_accIn (v : Word) (s : State) : (acknowledge v s).accIn = s.accIn := rfl
@[simp] theorem acknowledge_sum16 (v : Word) (s : State) : (acknowledge v s).sum16 = s.sum16 := rfl
@[simp] theorem acknowledge_cksum (v : Word) (s : State) : (acknowledge v s).cksum = s.cksum := rfl
@[simp] theorem acknowledge_faultAddr (v : Word) (s : State) : (acknowledge v s).faultAddr = s.faultAddr := rfl
@[simp] theorem acknowledge_phLen (v : Word) (s : State) : (acknowledge v s).phLen = s.phLen := rfl
@[simp] theorem acknowledge_ph (v : Word) (s : State) : (acknowledge v s).ph = s.ph := rfl
@[simp] theorem acknowledge_job (v : Word) (s : State) : (acknowledge v s).job = s.job := rfl
@[simp] theorem acknowledge_phase (v : Word) (s : State) : (acknowledge v s).phase = s.phase := rfl
@[simp] theorem acknowledge_acc (v : Word) (s : State) : (acknowledge v s).acc = s.acc := rfl
@[simp] theorem acknowledge_pend (v : Word) (s : State) : (acknowledge v s).pend = s.pend := rfl
@[simp] theorem acknowledge_pos (v : Word) (s : State) : (acknowledge v s).pos = s.pos := rfl
@[simp] theorem acknowledge_hpos (v : Word) (s : State) : (acknowledge v s).hpos = s.hpos := rfl
@[simp] theorem acknowledge_hb (v : Word) (s : State) : (acknowledge v s).hb = s.hb := rfl
@[simp] theorem acknowledge_hph (v : Word) (s : State) : (acknowledge v s).hph = s.hph := rfl
@[simp] theorem acknowledge_inReset (v : Word) (s : State) : (acknowledge v s).inReset = s.inReset := rfl
@[simp] theorem acknowledge_mem (v : Word) (s : State) : (acknowledge v s).mem = s.mem := rfl
@[simp] theorem acknowledge_hidden (v : Word) (s : State) : (acknowledge v s).hidden = s.hidden := rfl
@[simp] theorem acknowledge_disturbed (v : Word) (s : State) : (acknowledge v s).disturbed = s.disturbed := rfl
@[simp] theorem acknowledge_draws (v : Word) (s : State) : (acknowledge v s).draws = s.draws := rfl
@[simp] theorem acknowledge_host (v : Word) (s : State) : (acknowledge v s).host = s.host := rfl
@[simp] theorem acknowledge_turns (v : Word) (s : State) : (acknowledge v s).turns = s.turns := rfl
@[simp] theorem acknowledge_lastRead (v : Word) (s : State) : (acknowledge v s).lastRead = s.lastRead := rfl

/-! ### complete (R68) -/

@[simp] theorem complete_irqEn (j : Job) (s : State) : (complete j s).irqEn = s.irqEn := rfl
@[simp] theorem complete_status (j : Job) (s : State) :
    (complete j s).status =
      s.status.complete (verdictOf (complement16 (fold16 (accWithTail s.acc s.pend)))) := rfl
@[simp] theorem complete_aAddr (j : Job) (s : State) : (complete j s).aAddr = s.aAddr := rfl
@[simp] theorem complete_aLen (j : Job) (s : State) : (complete j s).aLen = s.aLen := rfl
@[simp] theorem complete_bAddr (j : Job) (s : State) : (complete j s).bAddr = s.bAddr := rfl
@[simp] theorem complete_bLen (j : Job) (s : State) : (complete j s).bLen = s.bLen := rfl
@[simp] theorem complete_accIn (j : Job) (s : State) : (complete j s).accIn = s.accIn := rfl
@[simp] theorem complete_sum16 (j : Job) (s : State) : (complete j s).sum16 = fold16 (accWithTail s.acc s.pend) := rfl
@[simp] theorem complete_cksum (j : Job) (s : State) :
    (complete j s).cksum =
      complement16 (fold16 (accWithTail s.acc s.pend)) := rfl
@[simp] theorem complete_faultAddr (j : Job) (s : State) : (complete j s).faultAddr = s.faultAddr := rfl
@[simp] theorem complete_phLen (j : Job) (s : State) : (complete j s).phLen = phLenAfter j.op s.phLen := rfl
@[simp] theorem complete_ph (j : Job) (s : State) : (complete j s).ph = phAfter j.op s.hph s.ph := rfl
@[simp] theorem complete_job (j : Job) (s : State) : (complete j s).job = none := rfl
@[simp] theorem complete_phase (j : Job) (s : State) : (complete j s).phase = .idle := rfl
@[simp] theorem complete_acc (j : Job) (s : State) : (complete j s).acc = accWithTail s.acc s.pend := rfl
@[simp] theorem complete_pend (j : Job) (s : State) : (complete j s).pend = none := rfl
@[simp] theorem complete_pos (j : Job) (s : State) : (complete j s).pos = s.pos := rfl
@[simp] theorem complete_hpos (j : Job) (s : State) : (complete j s).hpos = s.hpos := rfl
@[simp] theorem complete_hb (j : Job) (s : State) : (complete j s).hb = s.hb := rfl
@[simp] theorem complete_hph (j : Job) (s : State) : (complete j s).hph = s.hph := rfl
@[simp] theorem complete_inReset (j : Job) (s : State) : (complete j s).inReset = s.inReset := rfl
@[simp] theorem complete_mem (j : Job) (s : State) : (complete j s).mem = s.mem := rfl
@[simp] theorem complete_hidden (j : Job) (s : State) : (complete j s).hidden = s.hidden := rfl
@[simp] theorem complete_disturbed (j : Job) (s : State) : (complete j s).disturbed = [] := rfl
@[simp] theorem complete_draws (j : Job) (s : State) : (complete j s).draws = s.draws := rfl
@[simp] theorem complete_host (j : Job) (s : State) : (complete j s).host = s.host := rfl
@[simp] theorem complete_turns (j : Job) (s : State) : (complete j s).turns = s.turns := rfl
@[simp] theorem complete_lastRead (j : Job) (s : State) : (complete j s).lastRead = s.lastRead := rfl

/-! ### startJob (R65) -/

@[simp] theorem startJob_irqEn (j : Job) (s : State) : (startJob j s).irqEn = s.irqEn := rfl
@[simp] theorem startJob_status (j : Job) (s : State) : (startJob j s).status = s.status.start := rfl
@[simp] theorem startJob_aAddr (j : Job) (s : State) : (startJob j s).aAddr = s.aAddr := rfl
@[simp] theorem startJob_aLen (j : Job) (s : State) : (startJob j s).aLen = s.aLen := rfl
@[simp] theorem startJob_bAddr (j : Job) (s : State) : (startJob j s).bAddr = s.bAddr := rfl
@[simp] theorem startJob_bLen (j : Job) (s : State) : (startJob j s).bLen = s.bLen := rfl
@[simp] theorem startJob_accIn (j : Job) (s : State) : (startJob j s).accIn = s.accIn := rfl
@[simp] theorem startJob_sum16 (j : Job) (s : State) : (startJob j s).sum16 = s.sum16 := rfl
@[simp] theorem startJob_cksum (j : Job) (s : State) : (startJob j s).cksum = s.cksum := rfl
@[simp] theorem startJob_faultAddr (j : Job) (s : State) : (startJob j s).faultAddr = s.faultAddr := rfl
@[simp] theorem startJob_phLen (j : Job) (s : State) : (startJob j s).phLen = s.phLen := rfl
@[simp] theorem startJob_ph (j : Job) (s : State) : (startJob j s).ph = s.ph := rfl
@[simp] theorem startJob_job (j : Job) (s : State) : (startJob j s).job = some j := rfl
@[simp] theorem startJob_phase (j : Job) (s : State) : (startJob j s).phase = startPhase j := rfl
@[simp] theorem startJob_acc (j : Job) (s : State) : (startJob j s).acc = startAcc j := rfl
@[simp] theorem startJob_pend (j : Job) (s : State) : (startJob j s).pend = none := rfl
@[simp] theorem startJob_pos (j : Job) (s : State) : (startJob j s).pos = 0 := rfl
@[simp] theorem startJob_hpos (j : Job) (s : State) : (startJob j s).hpos = 0 := rfl
@[simp] theorem startJob_hb (j : Job) (s : State) : (startJob j s).hb = zeros40 := rfl
@[simp] theorem startJob_hph (j : Job) (s : State) : (startJob j s).hph = zeros40 := rfl
@[simp] theorem startJob_inReset (j : Job) (s : State) : (startJob j s).inReset = s.inReset := rfl
@[simp] theorem startJob_mem (j : Job) (s : State) : (startJob j s).mem = s.mem := rfl
@[simp] theorem startJob_hidden (j : Job) (s : State) : (startJob j s).hidden = s.hidden := rfl
@[simp] theorem startJob_disturbed (j : Job) (s : State) : (startJob j s).disturbed = s.hidden := rfl
@[simp] theorem startJob_draws (j : Job) (s : State) : (startJob j s).draws = s.draws := rfl
@[simp] theorem startJob_host (j : Job) (s : State) : (startJob j s).host = s.host := rfl
@[simp] theorem startJob_turns (j : Job) (s : State) : (startJob j s).turns = s.turns := rfl
@[simp] theorem startJob_lastRead (j : Job) (s : State) : (startJob j s).lastRead = s.lastRead := rfl

/-! ### storeByte (R43) -/

@[simp] theorem storeByte_irqEn (a : Word) (b : Byte) (v : Bool) (s : State) : (storeByte a b v s).irqEn = s.irqEn := rfl
@[simp] theorem storeByte_status (a : Word) (b : Byte) (v : Bool) (s : State) : (storeByte a b v s).status = s.status := rfl
@[simp] theorem storeByte_aAddr (a : Word) (b : Byte) (v : Bool) (s : State) : (storeByte a b v s).aAddr = s.aAddr := rfl
@[simp] theorem storeByte_aLen (a : Word) (b : Byte) (v : Bool) (s : State) : (storeByte a b v s).aLen = s.aLen := rfl
@[simp] theorem storeByte_bAddr (a : Word) (b : Byte) (v : Bool) (s : State) : (storeByte a b v s).bAddr = s.bAddr := rfl
@[simp] theorem storeByte_bLen (a : Word) (b : Byte) (v : Bool) (s : State) : (storeByte a b v s).bLen = s.bLen := rfl
@[simp] theorem storeByte_accIn (a : Word) (b : Byte) (v : Bool) (s : State) : (storeByte a b v s).accIn = s.accIn := rfl
@[simp] theorem storeByte_sum16 (a : Word) (b : Byte) (v : Bool) (s : State) : (storeByte a b v s).sum16 = s.sum16 := rfl
@[simp] theorem storeByte_cksum (a : Word) (b : Byte) (v : Bool) (s : State) : (storeByte a b v s).cksum = s.cksum := rfl
@[simp] theorem storeByte_faultAddr (a : Word) (b : Byte) (v : Bool) (s : State) :
    (storeByte a b v s).faultAddr =
      s.faultAddr := rfl
@[simp] theorem storeByte_phLen (a : Word) (b : Byte) (v : Bool) (s : State) : (storeByte a b v s).phLen = s.phLen := rfl
@[simp] theorem storeByte_ph (a : Word) (b : Byte) (v : Bool) (s : State) : (storeByte a b v s).ph = s.ph := rfl
@[simp] theorem storeByte_job (a : Word) (b : Byte) (v : Bool) (s : State) : (storeByte a b v s).job = s.job := rfl
@[simp] theorem storeByte_phase (a : Word) (b : Byte) (v : Bool) (s : State) : (storeByte a b v s).phase = s.phase := rfl
@[simp] theorem storeByte_acc (a : Word) (b : Byte) (v : Bool) (s : State) : (storeByte a b v s).acc = s.acc := rfl
@[simp] theorem storeByte_pend (a : Word) (b : Byte) (v : Bool) (s : State) : (storeByte a b v s).pend = s.pend := rfl
@[simp] theorem storeByte_pos (a : Word) (b : Byte) (v : Bool) (s : State) : (storeByte a b v s).pos = s.pos := rfl
@[simp] theorem storeByte_hpos (a : Word) (b : Byte) (v : Bool) (s : State) : (storeByte a b v s).hpos = s.hpos := rfl
@[simp] theorem storeByte_hb (a : Word) (b : Byte) (v : Bool) (s : State) : (storeByte a b v s).hb = s.hb := rfl
@[simp] theorem storeByte_hph (a : Word) (b : Byte) (v : Bool) (s : State) : (storeByte a b v s).hph = s.hph := rfl
@[simp] theorem storeByte_inReset (a : Word) (b : Byte) (v : Bool) (s : State) : (storeByte a b v s).inReset = s.inReset := rfl
@[simp] theorem storeByte_mem (a : Word) (b : Byte) (v : Bool) (s : State) : (storeByte a b v s).mem = s.mem.set a.toNat b := rfl
@[simp] theorem storeByte_hidden (a : Word) (b : Byte) (v : Bool) (s : State) :
    (storeByte a b v s).hidden =
      (if v then s.hidden.erase a.toNat
      else if decide (s.mem.answer a.toNat ≠ .ok b) then insertAddr a.toNat s.hidden else s.hidden) := rfl
@[simp] theorem storeByte_disturbed (a : Word) (b : Byte) (v : Bool) (s : State) :
    (storeByte a b v s).disturbed =
      (if decide (s.mem.answer a.toNat ≠ .ok b) && underRunningCommand s a.toNat then insertAddr a.toNat s.disturbed
      else s.disturbed) := rfl
@[simp] theorem storeByte_draws (a : Word) (b : Byte) (v : Bool) (s : State) : (storeByte a b v s).draws = s.draws := rfl
@[simp] theorem storeByte_host (a : Word) (b : Byte) (v : Bool) (s : State) : (storeByte a b v s).host = s.host := rfl
@[simp] theorem storeByte_turns (a : Word) (b : Byte) (v : Bool) (s : State) : (storeByte a b v s).turns = s.turns := rfl
@[simp] theorem storeByte_lastRead (a : Word) (b : Byte) (v : Bool) (s : State) : (storeByte a b v s).lastRead = s.lastRead := rfl

/-! ### publishStores (R45) -/

@[simp] theorem publishStores_irqEn (s : State) : (publishStores s).irqEn = s.irqEn := rfl
@[simp] theorem publishStores_status (s : State) : (publishStores s).status = s.status := rfl
@[simp] theorem publishStores_aAddr (s : State) : (publishStores s).aAddr = s.aAddr := rfl
@[simp] theorem publishStores_aLen (s : State) : (publishStores s).aLen = s.aLen := rfl
@[simp] theorem publishStores_bAddr (s : State) : (publishStores s).bAddr = s.bAddr := rfl
@[simp] theorem publishStores_bLen (s : State) : (publishStores s).bLen = s.bLen := rfl
@[simp] theorem publishStores_accIn (s : State) : (publishStores s).accIn = s.accIn := rfl
@[simp] theorem publishStores_sum16 (s : State) : (publishStores s).sum16 = s.sum16 := rfl
@[simp] theorem publishStores_cksum (s : State) : (publishStores s).cksum = s.cksum := rfl
@[simp] theorem publishStores_faultAddr (s : State) : (publishStores s).faultAddr = s.faultAddr := rfl
@[simp] theorem publishStores_phLen (s : State) : (publishStores s).phLen = s.phLen := rfl
@[simp] theorem publishStores_ph (s : State) : (publishStores s).ph = s.ph := rfl
@[simp] theorem publishStores_job (s : State) : (publishStores s).job = s.job := rfl
@[simp] theorem publishStores_phase (s : State) : (publishStores s).phase = s.phase := rfl
@[simp] theorem publishStores_acc (s : State) : (publishStores s).acc = s.acc := rfl
@[simp] theorem publishStores_pend (s : State) : (publishStores s).pend = s.pend := rfl
@[simp] theorem publishStores_pos (s : State) : (publishStores s).pos = s.pos := rfl
@[simp] theorem publishStores_hpos (s : State) : (publishStores s).hpos = s.hpos := rfl
@[simp] theorem publishStores_hb (s : State) : (publishStores s).hb = s.hb := rfl
@[simp] theorem publishStores_hph (s : State) : (publishStores s).hph = s.hph := rfl
@[simp] theorem publishStores_inReset (s : State) : (publishStores s).inReset = s.inReset := rfl
@[simp] theorem publishStores_mem (s : State) : (publishStores s).mem = s.mem := rfl
@[simp] theorem publishStores_hidden (s : State) : (publishStores s).hidden = [] := rfl
@[simp] theorem publishStores_disturbed (s : State) : (publishStores s).disturbed = s.disturbed := rfl
@[simp] theorem publishStores_draws (s : State) : (publishStores s).draws = s.draws := rfl
@[simp] theorem publishStores_host (s : State) : (publishStores s).host = s.host := rfl
@[simp] theorem publishStores_turns (s : State) : (publishStores s).turns = s.turns := rfl
@[simp] theorem publishStores_lastRead (s : State) : (publishStores s).lastRead = s.lastRead := rfl

/-! ### denyByte (R32) -/

@[simp] theorem denyByte_irqEn (a : Word) (s : State) : (denyByte a s).irqEn = s.irqEn := rfl
@[simp] theorem denyByte_status (a : Word) (s : State) : (denyByte a s).status = s.status := rfl
@[simp] theorem denyByte_aAddr (a : Word) (s : State) : (denyByte a s).aAddr = s.aAddr := rfl
@[simp] theorem denyByte_aLen (a : Word) (s : State) : (denyByte a s).aLen = s.aLen := rfl
@[simp] theorem denyByte_bAddr (a : Word) (s : State) : (denyByte a s).bAddr = s.bAddr := rfl
@[simp] theorem denyByte_bLen (a : Word) (s : State) : (denyByte a s).bLen = s.bLen := rfl
@[simp] theorem denyByte_accIn (a : Word) (s : State) : (denyByte a s).accIn = s.accIn := rfl
@[simp] theorem denyByte_sum16 (a : Word) (s : State) : (denyByte a s).sum16 = s.sum16 := rfl
@[simp] theorem denyByte_cksum (a : Word) (s : State) : (denyByte a s).cksum = s.cksum := rfl
@[simp] theorem denyByte_faultAddr (a : Word) (s : State) : (denyByte a s).faultAddr = s.faultAddr := rfl
@[simp] theorem denyByte_phLen (a : Word) (s : State) : (denyByte a s).phLen = s.phLen := rfl
@[simp] theorem denyByte_ph (a : Word) (s : State) : (denyByte a s).ph = s.ph := rfl
@[simp] theorem denyByte_job (a : Word) (s : State) : (denyByte a s).job = s.job := rfl
@[simp] theorem denyByte_phase (a : Word) (s : State) : (denyByte a s).phase = s.phase := rfl
@[simp] theorem denyByte_acc (a : Word) (s : State) : (denyByte a s).acc = s.acc := rfl
@[simp] theorem denyByte_pend (a : Word) (s : State) : (denyByte a s).pend = s.pend := rfl
@[simp] theorem denyByte_pos (a : Word) (s : State) : (denyByte a s).pos = s.pos := rfl
@[simp] theorem denyByte_hpos (a : Word) (s : State) : (denyByte a s).hpos = s.hpos := rfl
@[simp] theorem denyByte_hb (a : Word) (s : State) : (denyByte a s).hb = s.hb := rfl
@[simp] theorem denyByte_hph (a : Word) (s : State) : (denyByte a s).hph = s.hph := rfl
@[simp] theorem denyByte_inReset (a : Word) (s : State) : (denyByte a s).inReset = s.inReset := rfl
@[simp] theorem denyByte_mem (a : Word) (s : State) : (denyByte a s).mem = s.mem.deny a.toNat := rfl
@[simp] theorem denyByte_hidden (a : Word) (s : State) : (denyByte a s).hidden = s.hidden := rfl
@[simp] theorem denyByte_disturbed (a : Word) (s : State) : (denyByte a s).disturbed = s.disturbed := rfl
@[simp] theorem denyByte_draws (a : Word) (s : State) : (denyByte a s).draws = s.draws := rfl
@[simp] theorem denyByte_host (a : Word) (s : State) : (denyByte a s).host = s.host := rfl
@[simp] theorem denyByte_turns (a : Word) (s : State) : (denyByte a s).turns = s.turns := rfl
@[simp] theorem denyByte_lastRead (a : Word) (s : State) : (denyByte a s).lastRead = s.lastRead := rfl

/-! ### assertReset (R106) -/

@[simp] theorem assertReset_irqEn (s : State) : (assertReset s).irqEn = false := rfl
@[simp] theorem assertReset_status (s : State) : (assertReset s).status = Status.reset := rfl
@[simp] theorem assertReset_aAddr (s : State) : (assertReset s).aAddr = 0 := rfl
@[simp] theorem assertReset_aLen (s : State) : (assertReset s).aLen = 0 := rfl
@[simp] theorem assertReset_bAddr (s : State) : (assertReset s).bAddr = 0 := rfl
@[simp] theorem assertReset_bLen (s : State) : (assertReset s).bLen = 0 := rfl
@[simp] theorem assertReset_accIn (s : State) : (assertReset s).accIn = 0 := rfl
@[simp] theorem assertReset_sum16 (s : State) : (assertReset s).sum16 = 0 := rfl
@[simp] theorem assertReset_cksum (s : State) : (assertReset s).cksum = 0 := rfl
@[simp] theorem assertReset_faultAddr (s : State) : (assertReset s).faultAddr = 0 := rfl
@[simp] theorem assertReset_phLen (s : State) : (assertReset s).phLen = 0 := rfl
@[simp] theorem assertReset_ph (s : State) : (assertReset s).ph = zeros40 := rfl
@[simp] theorem assertReset_job (s : State) : (assertReset s).job = none := rfl
@[simp] theorem assertReset_phase (s : State) : (assertReset s).phase = .idle := rfl
@[simp] theorem assertReset_acc (s : State) : (assertReset s).acc = 0 := rfl
@[simp] theorem assertReset_pend (s : State) : (assertReset s).pend = none := rfl
@[simp] theorem assertReset_pos (s : State) : (assertReset s).pos = 0 := rfl
@[simp] theorem assertReset_hpos (s : State) : (assertReset s).hpos = 0 := rfl
@[simp] theorem assertReset_hb (s : State) : (assertReset s).hb = zeros40 := rfl
@[simp] theorem assertReset_hph (s : State) : (assertReset s).hph = zeros40 := rfl
@[simp] theorem assertReset_inReset (s : State) : (assertReset s).inReset = true := rfl
@[simp] theorem assertReset_mem (s : State) : (assertReset s).mem = s.mem := rfl
@[simp] theorem assertReset_hidden (s : State) : (assertReset s).hidden = s.hidden := rfl
@[simp] theorem assertReset_disturbed (s : State) : (assertReset s).disturbed = [] := rfl
@[simp] theorem assertReset_draws (s : State) : (assertReset s).draws = s.draws := rfl
@[simp] theorem assertReset_host (s : State) : (assertReset s).host = s.host := rfl
@[simp] theorem assertReset_turns (s : State) : (assertReset s).turns = s.turns := rfl
@[simp] theorem assertReset_lastRead (s : State) : (assertReset s).lastRead = s.lastRead := rfl

/-! ### releaseReset (R107) -/

@[simp] theorem releaseReset_irqEn (s : State) : (releaseReset s).irqEn = s.irqEn := rfl
@[simp] theorem releaseReset_status (s : State) : (releaseReset s).status = s.status := rfl
@[simp] theorem releaseReset_aAddr (s : State) : (releaseReset s).aAddr = s.aAddr := rfl
@[simp] theorem releaseReset_aLen (s : State) : (releaseReset s).aLen = s.aLen := rfl
@[simp] theorem releaseReset_bAddr (s : State) : (releaseReset s).bAddr = s.bAddr := rfl
@[simp] theorem releaseReset_bLen (s : State) : (releaseReset s).bLen = s.bLen := rfl
@[simp] theorem releaseReset_accIn (s : State) : (releaseReset s).accIn = s.accIn := rfl
@[simp] theorem releaseReset_sum16 (s : State) : (releaseReset s).sum16 = s.sum16 := rfl
@[simp] theorem releaseReset_cksum (s : State) : (releaseReset s).cksum = s.cksum := rfl
@[simp] theorem releaseReset_faultAddr (s : State) : (releaseReset s).faultAddr = s.faultAddr := rfl
@[simp] theorem releaseReset_phLen (s : State) : (releaseReset s).phLen = s.phLen := rfl
@[simp] theorem releaseReset_ph (s : State) : (releaseReset s).ph = s.ph := rfl
@[simp] theorem releaseReset_job (s : State) : (releaseReset s).job = s.job := rfl
@[simp] theorem releaseReset_phase (s : State) : (releaseReset s).phase = s.phase := rfl
@[simp] theorem releaseReset_acc (s : State) : (releaseReset s).acc = s.acc := rfl
@[simp] theorem releaseReset_pend (s : State) : (releaseReset s).pend = s.pend := rfl
@[simp] theorem releaseReset_pos (s : State) : (releaseReset s).pos = s.pos := rfl
@[simp] theorem releaseReset_hpos (s : State) : (releaseReset s).hpos = s.hpos := rfl
@[simp] theorem releaseReset_hb (s : State) : (releaseReset s).hb = s.hb := rfl
@[simp] theorem releaseReset_hph (s : State) : (releaseReset s).hph = s.hph := rfl
@[simp] theorem releaseReset_inReset (s : State) : (releaseReset s).inReset = false := rfl
@[simp] theorem releaseReset_mem (s : State) : (releaseReset s).mem = s.mem := rfl
@[simp] theorem releaseReset_hidden (s : State) : (releaseReset s).hidden = s.hidden := rfl
@[simp] theorem releaseReset_disturbed (s : State) : (releaseReset s).disturbed = s.disturbed := rfl
@[simp] theorem releaseReset_draws (s : State) : (releaseReset s).draws = s.draws := rfl
@[simp] theorem releaseReset_host (s : State) : (releaseReset s).host = s.host := rfl
@[simp] theorem releaseReset_turns (s : State) : (releaseReset s).turns = s.turns := rfl
@[simp] theorem releaseReset_lastRead (s : State) : (releaseReset s).lastRead = s.lastRead := rfl

/-! ### latchHeader (R66) -/

@[simp] theorem latchHeader_irqEn (j : Job) (o : Nat) (b : Byte) (s : State) : (latchHeader j o b s).irqEn = s.irqEn := rfl
@[simp] theorem latchHeader_status (j : Job) (o : Nat) (b : Byte) (s : State) : (latchHeader j o b s).status = s.status := rfl
@[simp] theorem latchHeader_aAddr (j : Job) (o : Nat) (b : Byte) (s : State) : (latchHeader j o b s).aAddr = s.aAddr := rfl
@[simp] theorem latchHeader_aLen (j : Job) (o : Nat) (b : Byte) (s : State) : (latchHeader j o b s).aLen = s.aLen := rfl
@[simp] theorem latchHeader_bAddr (j : Job) (o : Nat) (b : Byte) (s : State) : (latchHeader j o b s).bAddr = s.bAddr := rfl
@[simp] theorem latchHeader_bLen (j : Job) (o : Nat) (b : Byte) (s : State) : (latchHeader j o b s).bLen = s.bLen := rfl
@[simp] theorem latchHeader_accIn (j : Job) (o : Nat) (b : Byte) (s : State) : (latchHeader j o b s).accIn = s.accIn := rfl
@[simp] theorem latchHeader_sum16 (j : Job) (o : Nat) (b : Byte) (s : State) : (latchHeader j o b s).sum16 = s.sum16 := rfl
@[simp] theorem latchHeader_cksum (j : Job) (o : Nat) (b : Byte) (s : State) : (latchHeader j o b s).cksum = s.cksum := rfl
@[simp] theorem latchHeader_faultAddr (j : Job) (o : Nat) (b : Byte) (s : State) :
    (latchHeader j o b s).faultAddr =
      s.faultAddr := rfl
@[simp] theorem latchHeader_phLen (j : Job) (o : Nat) (b : Byte) (s : State) : (latchHeader j o b s).phLen = s.phLen := rfl
@[simp] theorem latchHeader_ph (j : Job) (o : Nat) (b : Byte) (s : State) : (latchHeader j o b s).ph = s.ph := rfl
@[simp] theorem latchHeader_job (j : Job) (o : Nat) (b : Byte) (s : State) : (latchHeader j o b s).job = s.job := rfl
@[simp] theorem latchHeader_phase (j : Job) (o : Nat) (b : Byte) (s : State) :
    (latchHeader j o b s).phase =
      (if decide (s.hpos + 1 = (hdrOffsets j.op).length) then .stream else s.phase) := rfl
@[simp] theorem latchHeader_acc (j : Job) (o : Nat) (b : Byte) (s : State) : (latchHeader j o b s).acc = s.acc := rfl
@[simp] theorem latchHeader_pend (j : Job) (o : Nat) (b : Byte) (s : State) : (latchHeader j o b s).pend = s.pend := rfl
@[simp] theorem latchHeader_pos (j : Job) (o : Nat) (b : Byte) (s : State) : (latchHeader j o b s).pos = s.pos := rfl
@[simp] theorem latchHeader_hpos (j : Job) (o : Nat) (b : Byte) (s : State) : (latchHeader j o b s).hpos = s.hpos + 1 := rfl
@[simp] theorem latchHeader_hb (j : Job) (o : Nat) (b : Byte) (s : State) :
    (latchHeader j o b s).hb =
      s.hb.setIfInBounds o b := rfl
@[simp] theorem latchHeader_hph (j : Job) (o : Nat) (b : Byte) (s : State) :
    (latchHeader j o b s).hph =
      (if decide (s.hpos + 1 = (hdrOffsets j.op).length) then assemble j.op (s.hb.setIfInBounds o b) j.bLen else s.hph) := rfl
@[simp] theorem latchHeader_inReset (j : Job) (o : Nat) (b : Byte) (s : State) : (latchHeader j o b s).inReset = s.inReset := rfl
@[simp] theorem latchHeader_mem (j : Job) (o : Nat) (b : Byte) (s : State) : (latchHeader j o b s).mem = s.mem := rfl
@[simp] theorem latchHeader_hidden (j : Job) (o : Nat) (b : Byte) (s : State) : (latchHeader j o b s).hidden = s.hidden := rfl
@[simp] theorem latchHeader_disturbed (j : Job) (o : Nat) (b : Byte) (s : State) :
    (latchHeader j o b s).disturbed =
      s.disturbed := rfl
@[simp] theorem latchHeader_draws (j : Job) (o : Nat) (b : Byte) (s : State) : (latchHeader j o b s).draws = s.draws := rfl
@[simp] theorem latchHeader_host (j : Job) (o : Nat) (b : Byte) (s : State) : (latchHeader j o b s).host = s.host := rfl
@[simp] theorem latchHeader_turns (j : Job) (o : Nat) (b : Byte) (s : State) : (latchHeader j o b s).turns = s.turns := rfl
@[simp] theorem latchHeader_lastRead (j : Job) (o : Nat) (b : Byte) (s : State) :
    (latchHeader j o b s).lastRead =
      s.lastRead := rfl

/-! ### takeStreamByte (R67) -/

@[simp] theorem takeStreamByte_irqEn (j : Job) (b : Byte) (s : State) : (takeStreamByte j b s).irqEn = s.irqEn := rfl
@[simp] theorem takeStreamByte_status (j : Job) (b : Byte) (s : State) : (takeStreamByte j b s).status = s.status := rfl
@[simp] theorem takeStreamByte_aAddr (j : Job) (b : Byte) (s : State) : (takeStreamByte j b s).aAddr = s.aAddr := rfl
@[simp] theorem takeStreamByte_aLen (j : Job) (b : Byte) (s : State) : (takeStreamByte j b s).aLen = s.aLen := rfl
@[simp] theorem takeStreamByte_bAddr (j : Job) (b : Byte) (s : State) : (takeStreamByte j b s).bAddr = s.bAddr := rfl
@[simp] theorem takeStreamByte_bLen (j : Job) (b : Byte) (s : State) : (takeStreamByte j b s).bLen = s.bLen := rfl
@[simp] theorem takeStreamByte_accIn (j : Job) (b : Byte) (s : State) : (takeStreamByte j b s).accIn = s.accIn := rfl
@[simp] theorem takeStreamByte_sum16 (j : Job) (b : Byte) (s : State) : (takeStreamByte j b s).sum16 = s.sum16 := rfl
@[simp] theorem takeStreamByte_cksum (j : Job) (b : Byte) (s : State) : (takeStreamByte j b s).cksum = s.cksum := rfl
@[simp] theorem takeStreamByte_faultAddr (j : Job) (b : Byte) (s : State) : (takeStreamByte j b s).faultAddr = s.faultAddr := rfl
@[simp] theorem takeStreamByte_phLen (j : Job) (b : Byte) (s : State) : (takeStreamByte j b s).phLen = s.phLen := rfl
@[simp] theorem takeStreamByte_ph (j : Job) (b : Byte) (s : State) : (takeStreamByte j b s).ph = s.ph := rfl
@[simp] theorem takeStreamByte_job (j : Job) (b : Byte) (s : State) : (takeStreamByte j b s).job = s.job := rfl
@[simp] theorem takeStreamByte_phase (j : Job) (b : Byte) (s : State) :
    (takeStreamByte j b s).phase =
      if s.pos + 1 = streamLen j then .finish else s.phase := rfl
@[simp] theorem takeStreamByte_acc (j : Job) (b : Byte) (s : State) :
    (takeStreamByte j b s).acc =
      (match s.pend with | none => s.acc | some hi => accumulate s.acc (joinBytes hi b)) := rfl
@[simp] theorem takeStreamByte_pend (j : Job) (b : Byte) (s : State) :
    (takeStreamByte j b s).pend =
      (match s.pend with | none => some b | some _ => none) := rfl
@[simp] theorem takeStreamByte_pos (j : Job) (b : Byte) (s : State) : (takeStreamByte j b s).pos = s.pos + 1 := rfl
@[simp] theorem takeStreamByte_hpos (j : Job) (b : Byte) (s : State) : (takeStreamByte j b s).hpos = s.hpos := rfl
@[simp] theorem takeStreamByte_hb (j : Job) (b : Byte) (s : State) : (takeStreamByte j b s).hb = s.hb := rfl
@[simp] theorem takeStreamByte_hph (j : Job) (b : Byte) (s : State) : (takeStreamByte j b s).hph = s.hph := rfl
@[simp] theorem takeStreamByte_inReset (j : Job) (b : Byte) (s : State) : (takeStreamByte j b s).inReset = s.inReset := rfl
@[simp] theorem takeStreamByte_mem (j : Job) (b : Byte) (s : State) : (takeStreamByte j b s).mem = s.mem := rfl
@[simp] theorem takeStreamByte_hidden (j : Job) (b : Byte) (s : State) : (takeStreamByte j b s).hidden = s.hidden := rfl
@[simp] theorem takeStreamByte_disturbed (j : Job) (b : Byte) (s : State) : (takeStreamByte j b s).disturbed = s.disturbed := rfl
@[simp] theorem takeStreamByte_draws (j : Job) (b : Byte) (s : State) : (takeStreamByte j b s).draws = s.draws := rfl
@[simp] theorem takeStreamByte_host (j : Job) (b : Byte) (s : State) : (takeStreamByte j b s).host = s.host := rfl
@[simp] theorem takeStreamByte_turns (j : Job) (b : Byte) (s : State) : (takeStreamByte j b s).turns = s.turns := rfl
@[simp] theorem takeStreamByte_lastRead (j : Job) (b : Byte) (s : State) : (takeStreamByte j b s).lastRead = s.lastRead := rfl

/-! ### withCommandNext (R47) -/

@[simp] theorem withCommandNext_irqEn (c : Word) (s : State) : (withCommandNext c s).irqEn = s.irqEn := rfl
@[simp] theorem withCommandNext_status (c : Word) (s : State) : (withCommandNext c s).status = s.status := rfl
@[simp] theorem withCommandNext_aAddr (c : Word) (s : State) : (withCommandNext c s).aAddr = s.aAddr := rfl
@[simp] theorem withCommandNext_aLen (c : Word) (s : State) : (withCommandNext c s).aLen = s.aLen := rfl
@[simp] theorem withCommandNext_bAddr (c : Word) (s : State) : (withCommandNext c s).bAddr = s.bAddr := rfl
@[simp] theorem withCommandNext_bLen (c : Word) (s : State) : (withCommandNext c s).bLen = s.bLen := rfl
@[simp] theorem withCommandNext_accIn (c : Word) (s : State) : (withCommandNext c s).accIn = s.accIn := rfl
@[simp] theorem withCommandNext_sum16 (c : Word) (s : State) : (withCommandNext c s).sum16 = s.sum16 := rfl
@[simp] theorem withCommandNext_cksum (c : Word) (s : State) : (withCommandNext c s).cksum = s.cksum := rfl
@[simp] theorem withCommandNext_faultAddr (c : Word) (s : State) : (withCommandNext c s).faultAddr = s.faultAddr := rfl
@[simp] theorem withCommandNext_phLen (c : Word) (s : State) : (withCommandNext c s).phLen = s.phLen := rfl
@[simp] theorem withCommandNext_ph (c : Word) (s : State) : (withCommandNext c s).ph = s.ph := rfl
@[simp] theorem withCommandNext_job (c : Word) (s : State) : (withCommandNext c s).job = s.job := rfl
@[simp] theorem withCommandNext_phase (c : Word) (s : State) : (withCommandNext c s).phase = s.phase := rfl
@[simp] theorem withCommandNext_acc (c : Word) (s : State) : (withCommandNext c s).acc = s.acc := rfl
@[simp] theorem withCommandNext_pend (c : Word) (s : State) : (withCommandNext c s).pend = s.pend := rfl
@[simp] theorem withCommandNext_pos (c : Word) (s : State) : (withCommandNext c s).pos = s.pos := rfl
@[simp] theorem withCommandNext_hpos (c : Word) (s : State) : (withCommandNext c s).hpos = s.hpos := rfl
@[simp] theorem withCommandNext_hb (c : Word) (s : State) : (withCommandNext c s).hb = s.hb := rfl
@[simp] theorem withCommandNext_hph (c : Word) (s : State) : (withCommandNext c s).hph = s.hph := rfl
@[simp] theorem withCommandNext_inReset (c : Word) (s : State) : (withCommandNext c s).inReset = s.inReset := rfl
@[simp] theorem withCommandNext_mem (c : Word) (s : State) : (withCommandNext c s).mem = s.mem := rfl
@[simp] theorem withCommandNext_hidden (c : Word) (s : State) : (withCommandNext c s).hidden = s.hidden := rfl
@[simp] theorem withCommandNext_disturbed (c : Word) (s : State) : (withCommandNext c s).disturbed = s.disturbed := rfl
@[simp] theorem withCommandNext_draws (c : Word) (s : State) : (withCommandNext c s).draws = s.draws := rfl
@[simp] theorem withCommandNext_host (c : Word) (s : State) : (withCommandNext c s).host = .wr cmdIndex c :: s.host := rfl
@[simp] theorem withCommandNext_turns (c : Word) (s : State) : (withCommandNext c s).turns = .host :: s.turns := rfl
@[simp] theorem withCommandNext_lastRead (c : Word) (s : State) : (withCommandNext c s).lastRead = s.lastRead := rfl

/-! ### STATUS -/

@[simp] theorem Status.dropCommand_busy (t : Status) : (t.dropCommand).busy = t.busy := rfl
@[simp] theorem Status.dropCommand_done (t : Status) : (t.dropCommand).done = t.done := rfl
@[simp] theorem Status.dropCommand_err (t : Status) : (t.dropCommand).err = t.err := rfl
@[simp] theorem Status.dropCommand_ovr (t : Status) : (t.dropCommand).ovr = true := rfl
@[simp] theorem Status.dropCommand_verdict (t : Status) : (t.dropCommand).verdict = t.verdict := rfl
@[simp] theorem Status.dropCommand_errCode (t : Status) : (t.dropCommand).errCode = t.errCode := rfl

@[simp] theorem Status.start_busy (t : Status) : (t.start).busy = true := rfl
@[simp] theorem Status.start_done (t : Status) : (t.start).done = t.done := rfl
@[simp] theorem Status.start_err (t : Status) : (t.start).err = t.err := rfl
@[simp] theorem Status.start_ovr (t : Status) : (t.start).ovr = t.ovr := rfl
@[simp] theorem Status.start_verdict (t : Status) : (t.start).verdict = t.verdict := rfl
@[simp] theorem Status.start_errCode (t : Status) : (t.start).errCode = t.errCode := rfl

@[simp] theorem Status.complete_busy (t : Status) (v : Bool) : (t.complete v).busy = false := rfl
@[simp] theorem Status.complete_done (t : Status) (v : Bool) : (t.complete v).done = true := rfl
@[simp] theorem Status.complete_err (t : Status) (v : Bool) : (t.complete v).err = t.err := rfl
@[simp] theorem Status.complete_ovr (t : Status) (v : Bool) : (t.complete v).ovr = t.ovr := rfl
@[simp] theorem Status.complete_verdict (t : Status) (v : Bool) : (t.complete v).verdict = v := rfl
@[simp] theorem Status.complete_errCode (t : Status) (v : Bool) : (t.complete v).errCode = t.errCode := rfl

@[simp] theorem Status.takeCommand_busy (t : Status) : (t.takeCommand).busy = t.busy := rfl
@[simp] theorem Status.takeCommand_done (t : Status) : (t.takeCommand).done = false := rfl
@[simp] theorem Status.takeCommand_err (t : Status) : (t.takeCommand).err = false := rfl
@[simp] theorem Status.takeCommand_ovr (t : Status) : (t.takeCommand).ovr = t.ovr := rfl
@[simp] theorem Status.takeCommand_verdict (t : Status) : (t.takeCommand).verdict = false := rfl
@[simp] theorem Status.takeCommand_errCode (t : Status) : (t.takeCommand).errCode = .none := rfl

@[simp] theorem Status.endError_busy (t : Status) (c : ErrCode) : (t.endError c).busy = false := rfl
@[simp] theorem Status.endError_done (t : Status) (c : ErrCode) : (t.endError c).done = true := rfl
@[simp] theorem Status.endError_err (t : Status) (c : ErrCode) : (t.endError c).err = true := rfl
@[simp] theorem Status.endError_ovr (t : Status) (c : ErrCode) : (t.endError c).ovr = t.ovr := rfl
@[simp] theorem Status.endError_verdict (t : Status) (c : ErrCode) : (t.endError c).verdict = t.verdict := rfl
@[simp] theorem Status.endError_errCode (t : Status) (c : ErrCode) : (t.endError c).errCode = c := rfl

@[simp] theorem Status.clearBits_busy (t : Status) (v : Word) : (t.clearBits v).busy = t.busy := rfl
@[simp] theorem Status.clearBits_done (t : Status) (v : Word) : (t.clearBits v).done = (t.done && !v.getLsbD 1) := rfl
@[simp] theorem Status.clearBits_err (t : Status) (v : Word) : (t.clearBits v).err = (t.err && !v.getLsbD 2) := rfl
@[simp] theorem Status.clearBits_ovr (t : Status) (v : Word) : (t.clearBits v).ovr = (t.ovr && !v.getLsbD 3) := rfl
@[simp] theorem Status.clearBits_verdict (t : Status) (v : Word) : (t.clearBits v).verdict = t.verdict := rfl
@[simp] theorem Status.clearBits_errCode (t : Status) (v : Word) : (t.clearBits v).errCode = (if v.getLsbD 2 then .none else t.errCode) := rfl

@[simp] theorem Status.reset_busy : Status.reset.busy = false := rfl
@[simp] theorem Status.reset_done : Status.reset.done = false := rfl
@[simp] theorem Status.reset_err : Status.reset.err = false := rfl
@[simp] theorem Status.reset_ovr : Status.reset.ovr = false := rfl
@[simp] theorem Status.reset_verdict : Status.reset.verdict = false := rfl
@[simp] theorem Status.reset_errCode : Status.reset.errCode = .none := rfl

end Sys2Proof.Machine
end

