-- ==== Sys2Proof/Laws/Ops.lean ====
section
/-! SUPPORT. One lemma per shared operation that says everything it can do; later proofs cite these. -/

namespace Sys2Proof.Machine

/-- A read changes nothing but the counter of free bytes, and answers BUS_ERROR exactly when the platform does. -/
theorem memRead_cases (s : State) (a : Nat) :
    (s.mem.answer a = .busError ∧ memRead s a = (.busError, s)) ∨
      (∃ b c d, s.mem.answer a = .ok b ∧ memRead s a = (.ok c, s.setDraws d)) := by
  unfold memRead
  split
  · exact .inl ⟨‹_›, rfl⟩
  · rename_i b hb
    split
    · exact .inr ⟨b, _, _, hb, rfl⟩
    · exact .inr ⟨b, b, s.draws, hb, rfl⟩

/-- A CMD write has no effect in reset, only sets OVR while BUSY, and else goes on with the last command's status cleared. -/
theorem takeCommand_cases (go : State → State) (s : State) :
    (s.inReset = true ∧ takeCommand go s = s) ∨
      (s.inReset = false ∧ s.status.busy = true ∧
        takeCommand go s = s.setStatus s.status.dropCommand) ∨
      (Ready s ∧ takeCommand go s = go (s.setStatus s.status.takeCommand)) := by
  unfold takeCommand
  cases hr : s.inReset <;> cases hb : s.status.busy <;> simp [Ready, hr, hb]

/-- Acceptance after the command was taken: RANGE for the first illegal region, or the command runs. -/
theorem checkAndStart_cases (op : Instr) (s : State) :
    (∃ r, firstIllegal (regionsOf (copyOperands op s)) = some r ∧
        checkAndStart op s = endError .range (some r.base) s) ∨
      (firstIllegal (regionsOf (copyOperands op s)) = none ∧
        checkAndStart op s = startJob (copyOperands op s) s) := by
  unfold checkAndStart
  cases h : firstIllegal (regionsOf (copyOperands op s)) with
  | some r => exact .inl ⟨r, rfl, rfl⟩
  | none => exact .inr ⟨rfl, rfl⟩

/-- Every command's meaning is the issue of that command. -/
theorem exec_eq_issue (i : Instr) (s : State) : exec i s = .next (issue i s) := by
  cases i <;> rfl

/-- What a CMD write of a command's word can do. -/
theorem issue_cases (op : Instr) (s : State) :
    (s.inReset = true ∧ issue op s = s) ∨
      (s.inReset = false ∧ s.status.busy = true ∧ issue op s = s.setStatus s.status.dropCommand) ∨
      (Ready s ∧ ∃ r, firstIllegal (regionsOf (copyOperands op s)) = some r ∧
        issue op s = endError .range (some r.base) (s.setStatus s.status.takeCommand)) ∨
      (Ready s ∧ firstIllegal (regionsOf (copyOperands op s)) = none ∧
        issue op s = startJob (copyOperands op s) (s.setStatus s.status.takeCommand)) := by
  unfold issue
  rcases takeCommand_cases (checkAndStart op) s with h | h | ⟨hr, h⟩
  · exact .inl h
  · exact .inr (.inl h)
  · rw [h]
    rcases checkAndStart_cases op (s.setStatus s.status.takeCommand) with ⟨r, h1, h2⟩ | ⟨h1, h2⟩
    · exact .inr (.inr (.inl ⟨hr, r, h1, h2⟩))
    · exact .inr (.inr (.inr ⟨hr, h1, h2⟩))

/-- What a CMD write of an illegal word can do. -/
theorem issueIllegal_cases (s : State) :
    (s.inReset = true ∧ issueIllegal s = s) ∨
      (s.inReset = false ∧ s.status.busy = true ∧ issueIllegal s = s.setStatus s.status.dropCommand) ∨
      (Ready s ∧ issueIllegal s = endError .illegalCmd none (s.setStatus s.status.takeCommand)) :=
  takeCommand_cases _ s

/-- No region of a list is illegal exactly when every region is legal. -/
theorem firstIllegal_eq_none {rs : List Region} : firstIllegal rs = none ↔ ∀ r ∈ rs, regionLegal r = true := by
  simp [firstIllegal, List.find?_eq_none]

theorem regionLegal_iff {r : Region} : regionLegal r = true ↔ r.len = 0 ∨ r.base.toNat + r.len ≤ 2 ^ 32 := by
  simp [regionLegal]

/-- Reading a byte of a register that has just been assembled or latched. -/
theorem byteAt_eq_getElem (v : Vector Byte 40) {k : Nat} (h : k < 40) : byteAt v k = v[k] := by
  simp [byteAt, Vector.getD, h]

theorem byteAt_of_ge (v : Vector Byte 40) {k : Nat} (h : 40 ≤ k) : byteAt v k = 0 := by
  simp [byteAt, Vector.getD, Nat.not_lt.2 h]

end Sys2Proof.Machine
end

