-- ==== Sys2Proof/Laws/Checksum.lean ====
section
/-! SUPPORT. The small lemmas of the shared arithmetic and of the operand forms: the value of each part of a word as a natural, the
cutting of a stream into words, and the slot map. -/

namespace Sys2Proof.Machine

/-! ### The arithmetic as naturals (R58 to R61) -/

theorem toNat_lowHalf (v : Word) : (lowHalf v).toNat = v.toNat % 65536 := by
  simp [lowHalf, BitVec.extractLsb'_toNat]

theorem toNat_highHalf (v : Word) : (highHalf v).toNat = v.toNat / 65536 := by
  have := v.isLt
  simp [highHalf, BitVec.extractLsb'_toNat, Nat.shiftRight_eq_div_pow]
  omega

theorem highHalf_eq_zero {v : Word} : highHalf v = 0 ↔ v.toNat < 65536 := by
  rw [← BitVec.toNat_inj, toNat_highHalf]
  simp

theorem toNat_joinBytes (hi lo : Byte) : (joinBytes hi lo).toNat = 256 * hi.toNat + lo.toNat := by
  have := hi.isLt
  have := lo.isLt
  rw [joinBytes, BitVec.toNat_append, ← Nat.shiftLeft_add_eq_or_of_lt (by omega)]
  simp [Nat.shiftLeft_eq]
  omega

/-- Bit 31 of a word, as a comparison. -/
theorem getLsbD_31 (v : Word) : v.getLsbD 31 = decide (2 ^ 31 ≤ v.toNat) := by
  have := v.isLt
  rw [BitVec.getLsbD, Nat.testBit_eq_decide_div_mod_eq]
  congr 1
  apply propext
  omega

/-! ### The words of a stream (R58) -/

@[simp] theorem wordsOf_nil : wordsOf [] = [] := rfl
@[simp] theorem wordsOf_one (a : Byte) : wordsOf [a] = [joinBytes a 0] := rfl
@[simp] theorem wordsOf_cons_cons (a b : Byte) (r : List Byte) : wordsOf (a :: b :: r) = joinBytes a b :: wordsOf r := rfl

@[simp] theorem totalOf_nil : totalOf [] = 0 := rfl
@[simp] theorem totalOf_cons (w : Half) (ws : List Half) : totalOf (w :: ws) = w.toNat + totalOf ws := rfl

/-! ### Schedules of incremental folds (R59, R63) -/

@[simp] theorem fitsThroughout_nil (acc : Word) : fitsThroughout acc [] = true := rfl

theorem fitsThroughout_cons {acc : Word} {w : Half} {f : Bool} {r : List (Half × Bool)} :
    fitsThroughout acc ((w, f) :: r) = true ↔
      acc.toNat + w.toNat < 2 ^ 32 ∧ fitsThroughout (addThenMaybeFold acc (w, f)) r = true := by
  simp [fitsThroughout]

/-! ### The 40-byte registers (R24, R26) -/

theorem byteAt_zeros40 (k : Nat) : byteAt zeros40 k = 0 := by
  by_cases h : k < 40
  · rw [byteAt_eq_getElem _ h]
    simp [zeros40]
  · exact byteAt_of_ge _ (by omega)

theorem byteAt_setIfInBounds (v : Vector Byte 40) {o : Nat} (b : Byte) (k : Nat) (h : o < 40) :
    byteAt (v.setIfInBounds o b) k = if k = o then b else byteAt v k := by
  by_cases hk : k < 40
  · rw [byteAt_eq_getElem _ hk, byteAt_eq_getElem _ hk, Vector.getElem_setIfInBounds]
    simp [eq_comm]
  · rw [byteAt_of_ge _ (by omega), byteAt_of_ge _ (by omega)]
    split
    · omega
    · rfl

/-! ### The slot map (R10) -/

@[simp] theorem slotOf_ctrl : slotOf 0#5 = .ctrl := rfl
@[simp] theorem slotOf_status : slotOf 1#5 = .status := rfl
@[simp] theorem slotOf_cmd : slotOf 2#5 = .cmd := rfl
@[simp] theorem slotOf_aAddr : slotOf 3#5 = .aAddr := rfl
@[simp] theorem slotOf_aLen : slotOf 4#5 = .aLen := rfl
@[simp] theorem slotOf_bAddr : slotOf 5#5 = .bAddr := rfl
@[simp] theorem slotOf_bLen : slotOf 6#5 = .bLen := rfl
@[simp] theorem slotOf_accIn : slotOf 7#5 = .accIn := rfl
@[simp] theorem slotOf_sum16 : slotOf 8#5 = .sum16 := rfl
@[simp] theorem slotOf_cksum : slotOf 9#5 = .cksum := rfl
@[simp] theorem slotOf_faultAddr : slotOf 10#5 = .faultAddr := rfl
@[simp] theorem slotOf_phLen : slotOf 11#5 = .phLen := rfl

/-- A read of a slot does not depend on who moves next. -/
@[simp] theorem portRead_setTurns (l : List Agent) (s : State) (i : BitVec 5) : portRead (s.setTurns l) i = portRead s i := by
  cases h : s.inReset <;> simp [portRead, h]
  cases slotOf i <;> rfl

/-- A read of a slot does not depend on what the host does next. -/
@[simp] theorem portRead_setHost (l : List HostOp) (s : State) (i : BitVec 5) : portRead (s.setHost l) i = portRead s i := by
  cases h : s.inReset <;> simp [portRead, h]
  cases slotOf i <;> rfl

end Sys2Proof.Machine
end

