-- ==== Sys2Proof/Laws/Engine.lean ====
section
/-! SUPPORT. What a turn of the engine can do. -/

namespace Sys2Proof.Machine

/-- When the hidden state designates a step, as a proposition. -/
theorem phaseCoherent_iff {j : Job} {s : State} :
    phaseCoherent j s = true ↔
      (s.phase = .hdr ∧ s.hpos < (hdrOffsets j.op).length) ∨ (s.phase = .stream ∧ s.pos < streamLen j) ∨
        s.phase = .finish := by
  unfold phaseCoherent
  cases s.phase <;> simp

/-- A turn of the engine that does not stop: nothing when no command runs or reset is asserted, else the one enabled step. -/
theorem engineStep_cases {s t : State} (h : engineStep s = .next t) :
    ((s.inReset = true ∨ s.status.busy = false) ∧ t = s) ∨
      (s.inReset = false ∧ s.status.busy = true ∧ ∃ j, s.job = some j ∧ phaseCoherent j s = true ∧
        firstIllegal (regionsOf j) = none ∧ t = engineMove j s) := by
  unfold engineStep at h
  split at h
  · exact .inl ⟨.inl ‹_›, by simpa using h.symm⟩
  · rename_i hr
    split at h
    · rename_i hb
      exact .inl ⟨.inr (by simpa using hb), by simpa using h.symm⟩
    · rename_i hb
      split at h
      · cases h
      · rename_i j hj
        split at h
        · cases h
        · rename_i hc
          split at h
          · cases h
          · rename_i hf
            refine .inr ⟨by simpa using hr, by simpa using hb, j, hj, by simpa using hc, ?_, by simpa using h.symm⟩
            simpa using hf

/-- The engine's turn when a command runs in a coherent state. -/
theorem engineStep_running {s : State} {j : Job} (hr : s.inReset = false) (hb : s.status.busy = true) (hj : s.job = some j)
    (hc : phaseCoherent j s = true) (hl : firstIllegal (regionsOf j) = none) :
    engineStep s = .next (engineMove j s) := by
  simp [engineStep, hr, hb, hj, hc, hl]

/-- The header step: an error end, or one byte latched. -/
theorem headerStep_cases (j : Job) (s : State) :
    (∃ a, s.mem.answer a = .busError ∧ a = j.aAddr.toNat + (hdrOffsets j.op).getD s.hpos 0 ∧
        headerStep j s = endError .bus (some (BitVec.ofNat 32 a)) s) ∨
      (∃ b d, headerStep j s = latchHeader j ((hdrOffsets j.op).getD s.hpos 0) b (s.setDraws d)) := by
  unfold headerStep
  rcases memRead_cases s (j.aAddr.toNat + (hdrOffsets j.op).getD s.hpos 0) with ⟨h1, h2⟩ | ⟨b, c, d, -, h2⟩
  · exact .inl ⟨_, h1, rfl, by simp only [h2]⟩
  · exact .inr ⟨c, d, by simp only [h2]⟩

/-- The stream step: an error end, or one byte taken. -/
theorem streamStep_cases (j : Job) (s : State) :
    (∃ a, s.mem.answer a = .busError ∧ streamSource j s.pos = .memory a ∧
        streamStep j s = endError .bus (some (BitVec.ofNat 32 a)) s) ∨
      (∃ b d, streamStep j s = takeStreamByte j b (s.setDraws d)) := by
  unfold streamStep
  split
  · exact .inr ⟨_, s.draws, rfl⟩
  · rename_i a ha
    rcases memRead_cases s a with ⟨h1, h2⟩ | ⟨b, c, d, -, h2⟩
    · exact .inl ⟨a, h1, ha, by simp only [h2]⟩
    · exact .inr ⟨c, d, by simp only [h2]⟩

theorem engineMove_hdr {j : Job} {s : State} (h : s.phase = .hdr) : engineMove j s = headerStep j s := by
  simp only [engineMove, h]

theorem engineMove_stream {j : Job} {s : State} (h : s.phase = .stream) : engineMove j s = streamStep j s := by
  simp only [engineMove, h]

theorem engineMove_finish {j : Job} {s : State} (h : s.phase = .finish) : engineMove j s = complete j s := by
  simp only [engineMove, h]

/-- What the enabled step can do: end the command with BUS, latch a header byte, take a stream byte, or complete. -/
theorem engineMove_cases {j : Job} {s : State} (hc : phaseCoherent j s = true) :
    (∃ a, engineMove j s = endError .bus (some (BitVec.ofNat 32 a)) s) ∨
      (s.phase = .hdr ∧ ∃ b d,
        engineMove j s = latchHeader j ((hdrOffsets j.op).getD s.hpos 0) b (s.setDraws d)) ∨
      (s.phase = .stream ∧ ∃ b d, engineMove j s = takeStreamByte j b (s.setDraws d)) ∨
      (s.phase = .finish ∧ engineMove j s = complete j s) := by
  cases hp : s.phase with
  | idle => simp [phaseCoherent, hp] at hc
  | hdr =>
    rw [engineMove_hdr hp]
    rcases headerStep_cases j s with ⟨a, -, -, h⟩ | h
    · exact .inl ⟨a, h⟩
    · exact .inr (.inl ⟨rfl, h⟩)
  | stream =>
    rw [engineMove_stream hp]
    rcases streamStep_cases j s with ⟨a, -, -, h⟩ | h
    · exact .inl ⟨a, h⟩
    · exact .inr (.inr (.inl ⟨rfl, h⟩))
  | finish => exact .inr (.inr (.inr ⟨rfl, engineMove_finish hp⟩))

end Sys2Proof.Machine
end

