-- ==== Sys2Proof/Laws/PerInstr.lean ====
section
/-! SUPPORT. A family of statements with one lemma per command: its word has RSV zero and an OP value of R50, so it is well formed. -/

namespace Sys2Proof.Laws.OpField

/-- R49, R50: the command's word is its OP value alone, with RSV zero, and its fields are well formed. -/
def Statement (i : Instr) : Prop :=
  (fieldsOf (encode i)).rsv = 0 ∧ (fieldsOf (encode i)).op = opOf i ∧ (fieldsOf (encode i)).wf = true ∧
    (encode i).toNat = (opOf i).toNat

theorem sum : Statement .sum := by unfold Statement; decide
theorem sum2 : Statement .sum2 := by unfold Statement; decide
theorem fold : Statement .fold := by unfold Statement; decide
theorem verifyIp : Statement .verifyIp := by unfold Statement; decide
theorem verifyV4 : Statement .verifyV4 := by unfold Statement; decide
theorem verifyV6 : Statement .verifyV6 := by unfold Statement; decide

end Sys2Proof.Laws.OpField
end

