-- ==== Sys2Proof/Laws/Step.lean ====
section
/-! SUPPORT. What a transaction of the host and a step of the machine can do. -/

namespace Sys2Proof.Machine

theorem writeCmd_cases (c : Word) (s : State) :
    (∃ i, decode c = .ok i ∧ writeCmd c s = .next (issue i s)) ∨
      (∃ e, decode c = .error e ∧ writeCmd c s = .next (issueIllegal s)) := by
  unfold writeCmd
  cases h : decode c with
  | ok i => exact .inl ⟨i, rfl, exec_eq_issue i s⟩
  | error e => exact .inr ⟨e, rfl, rfl⟩

/-- A register-port write: a command or illegal word at CMD, nothing in reset, else a plain write. -/
theorem portWrite_cases (i : BitVec 5) (v : Word) (s : State) :
    (slotOf i = .cmd ∧ ∃ op, decode v = .ok op ∧ portWrite i v s = .next (issue op s)) ∨
      (slotOf i = .cmd ∧ (∃ e, decode v = .error e) ∧ portWrite i v s = .next (issueIllegal s)) ∨
      (slotOf i ≠ .cmd ∧ s.inReset = true ∧ portWrite i v s = .next s) ∨
      (slotOf i ≠ .cmd ∧ s.inReset = false ∧ portWrite i v s = .next (writeSlot (slotOf i) v s)) := by
  unfold portWrite
  split
  · rename_i h
    rcases writeCmd_cases v s with ⟨op, h1, h2⟩ | ⟨e, h1, h2⟩
    · exact .inl ⟨h, op, h1, h2⟩
    · exact .inr (.inl ⟨h, ⟨e, h1⟩, h2⟩)
  · rename_i h
    split
    · rename_i hr
      exact .inr (.inr (.inl ⟨h, hr, rfl⟩))
    · rename_i hr
      exact .inr (.inr (.inr ⟨h, by simpa using hr, rfl⟩))

/-- No transaction of the outside world stops the machine. -/
theorem hostOp_next (o : HostOp) (s : State) : ∃ t, hostOp o s = .next t := by
  cases o with
  | wr i v =>
    rcases portWrite_cases i v s with ⟨-, _, -, h⟩ | ⟨-, -, h⟩ | ⟨-, -, h⟩ | ⟨-, -, h⟩ <;> exact ⟨_, h⟩
  | rd i => exact ⟨_, rfl⟩
  | poll i mask val => exact ⟨_, rfl⟩
  | assertReset => exact ⟨_, rfl⟩
  | releaseReset => exact ⟨_, rfl⟩
  | store a b v => exact ⟨_, rfl⟩
  | publish => exact ⟨_, rfl⟩
  | deny a => exact ⟨_, rfl⟩

/-- A step is the host's next transaction, nothing when the host has none, or a turn of the engine. -/
theorem step_cases {s t : State} (h : step s = .next t) :
    (∃ turns, nextTurn s = (.host, turns) ∧
        ((s.host = [] ∧ t = s.setTurns turns) ∨
          (∃ o rest, s.host = o :: rest ∧ hostOp o ((s.setTurns turns).setHost rest) = .next t))) ∨
      (∃ turns, nextTurn s = (.engine, turns) ∧ engineStep (s.setTurns turns) = .next t) := by
  unfold step at h
  split at h
  · rename_i turns hn
    refine .inl ⟨turns, hn, ?_⟩
    unfold hostStep at h
    split at h
    · rename_i hh
      exact .inl ⟨hh, by simpa using h.symm⟩
    · rename_i o rest hh
      exact .inr ⟨o, rest, hh, h⟩
  · rename_i turns hn
    exact .inr ⟨turns, hn, h⟩

end Sys2Proof.Machine
end

