-- ==== Sys2Proof/Tests/Slice0.lean ====
section
/-! SUPPORT. The model's own tests: the words of the opcode map written out, the ill-formed command words, small one-step tests with
the values of spec/95_test_vectors.md, and for every statement with hypotheses a witness that meets them. -/

namespace Sys2Proof.Tests

open Sys2Proof.Machine

/-! ### Well-formedness: every check refuses a term that breaks it (R49, R50, R51) -/

theorem test_wf_refuses_reserved_bit : CommandFields.wf { op := 1, rsv := 1 } = false := by decide
theorem test_wf_refuses_top_reserved_bit : CommandFields.wf { op := 6, rsv := 0x8000000 } = false := by decide
theorem test_wf_refuses_op_zero : CommandFields.wf { op := 0, rsv := 0 } = false := by decide
theorem test_wf_refuses_op_seven_up : ∀ o : BitVec 4, 7 ≤ o.toNat → CommandFields.wf { op := o, rsv := 0 } = false := by decide
theorem test_wf_takes_op_six : CommandFields.wf { op := 6, rsv := 0 } = true := by decide

/-! ### Decoding: RSV in bits 31:4, OP in bits 3:0, written out bit by bit (R49, R50) -/

theorem test_decode_sum : decode 0b0000000000000000000000000000_0001 = .ok .sum := by decide
theorem test_decode_sum2 : decode 0b0000000000000000000000000000_0010 = .ok .sum2 := by decide
theorem test_decode_fold : decode 0b0000000000000000000000000000_0011 = .ok .fold := by decide
theorem test_decode_verifyIp : decode 0b0000000000000000000000000000_0100 = .ok .verifyIp := by decide
theorem test_decode_verifyV4 : decode 0b0000000000000000000000000000_0101 = .ok .verifyV4 := by decide
theorem test_decode_verifyV6 : decode 0b0000000000000000000000000000_0110 = .ok .verifyV6 := by decide
/-- V71: the words 0x0, 0x7, 0xF, 0x11 and 0x80000001 are illegal. -/
theorem test_decode_illegal :
    decode 0b0000000000000000000000000000_0000 = .error .unassignedOp ∧
    decode 0b0000000000000000000000000000_0111 = .error .unassignedOp ∧
    decode 0b0000000000000000000000000000_1111 = .error .unassignedOp ∧
    decode 0b0000000000000000000000000001_0001 = .error .reservedBitsSet ∧
    decode 0b1000000000000000000000000000_0001 = .error .reservedBitsSet := by decide
theorem test_decodeTableWord :
    decodeTableWord 32 5 = some .verifyV4 ∧ decodeTableWord 32 7 = none ∧ decodeTableWord 40 (2 ^ 32 + 1) = none := by decide

/-! ### Small states -/

/-- Some packets of spec/95_test_vectors.md: `H1` (V10), `H4` and `U1` (V20), the address bytes of `H6` (V60). -/
def h1 : List Byte :=
  [0x45, 0x00, 0x00, 0x73, 0x00, 0x00, 0x40, 0x00, 0x40, 0x11, 0xB8, 0x61, 0xC0, 0xA8, 0x00, 0x01, 0xC0, 0xA8, 0x00, 0xC7]
def h4 : List Byte :=
  [0x45, 0x00, 0x00, 0x1E, 0x00, 0x01, 0x00, 0x00, 0x40, 0x11, 0xF9, 0x7A, 0xC0, 0xA8, 0x00, 0x01, 0xC0, 0xA8, 0x00, 0x02]
def u1 : List Byte := [0x04, 0xD2, 0x16, 0x2E, 0x00, 0x0A, 0x22, 0x44, 0x41, 0x42]
def a6 : List Byte := [0xFE, 0x80, 0, 0, 0, 0, 0, 0, 0, 0, 0, 0, 0, 0, 0, 0x01]
def b6 : List Byte := [0xFE, 0x80, 0, 0, 0, 0, 0, 0, 0, 0, 0, 0, 0, 0, 0, 0x02]
def h6 : List Byte := [0x60, 0x00, 0x00, 0x00, 0x00, 0x0A, 0x11, 0x40] ++ (a6 ++ b6)
def u6 : List Byte := [0x04, 0xD2, 0x16, 0x2E, 0x00, 0x0A, 0xA6, 0x93, 0x41, 0x42]

/-- The 40-byte register that holds a header's bytes. -/
def headerRegister (bs : List Byte) : Vector Byte 40 := Vector.ofFn fun i => bs.getD i.val 0

/-- An idle block with the operands `(a, n)` and `(b, m)` and the bytes `bs` in memory at `a`. -/
def idleWith (a n b m : Word) (bs : List Byte) : State :=
  { State.reset with aAddr := a, aLen := n, bAddr := b, bLen := m, mem := Memory.setBytes [] a.toNat bs }

/-- A state with the outcome's next state, for reading one field of it. -/
def after (o : Outcome) : State :=
  match o with
  | .next t => t
  | .fault _ => State.reset
  | .refused _ => State.reset

/-! ### One step per command, with the values of spec/95_test_vectors.md -/

/-- V1: SUM over `12` is accepted and reads its stream next. -/
theorem test_sum_accepted :
    (after (exec .sum (idleWith 0x1000 1 0 0 [0x12]))).status.word = 0x00000001 ∧
    (after (exec .sum (idleWith 0x1000 1 0 0 [0x12]))).phase = .stream := by decide
/-- V73: SUM with A = (0xFFFFFFFF, 2) ends with RANGE, STATUS = 0x206. -/
theorem test_sum_range :
    (after (exec .sum (idleWith 0xFFFFFFFF 2 0 0 []))).status.word = 0x206 ∧
    (after (exec .sum (idleWith 0xFFFFFFFF 2 0 0 []))).faultAddr = 0xFFFFFFFF := by decide
/-- V74: SUM2 with A legal and B = (0xFFFFFFFE, 3) names B. -/
theorem test_sum2_range_names_b :
    (after (exec .sum2 (idleWith 0x1000 2 0xFFFFFFFE 3 []))).faultAddr = 0xFFFFFFFE ∧
    (after (exec .sum2 (idleWith 0x1000 2 0xFFFFFFFE 3 []))).status.word = 0x206 := by decide
/-- V74: with A illegal too, A is named. -/
theorem test_sum2_range_names_a_first :
    (after (exec .sum2 (idleWith 0xFFFFFFFF 2 0xFFFFFFFE 3 []))).faultAddr = 0xFFFFFFFF := by decide
/-- V30, V32: FOLD's completion step on 0x12345678 and on 0xFFFFFFFF. -/
theorem test_fold_completes :
    let done (v : Word) := after (engineStep (after (exec .fold { State.reset with accIn := v, aAddr := 0xFFFFFFFF, aLen := 5 })))
    (done 0x12345678).sum16 = 0x68AC ∧ (done 0x12345678).cksum = 0x9753 ∧ (done 0x12345678).status.word = 0x02 ∧
    (done 0xFFFFFFFF).sum16 = 0xFFFF ∧ (done 0xFFFFFFFF).status.word = 0x12 := by decide
/-- V14b: VERIFY_IP at 0xFFFFFFF0 ends with RANGE although A_LEN is 0. -/
theorem test_verifyIp_range :
    (after (exec .verifyIp (idleWith 0xFFFFFFF0 0 0 0 []))).status.word = 0x206 ∧
    (after (exec .verifyIp (idleWith 0xFFFFFFF0 0 0 0 []))).faultAddr = 0xFFFFFFF0 := by decide
/-- V10: the header `H1` sums to 0xFFFF. -/
theorem test_verifyIp_sum : streamSum h1 = 0xFFFF := by decide
/-- V79a: VERIFY_V4 ignores A_LEN. -/
theorem test_verifyV4_ignores_aLen :
    (after (exec .verifyV4 (idleWith 0x1000 0xFFFFFFFF 0 0 []))).phase = .hdr := by decide
set_option maxRecDepth 4000 in
/-- V20: the pseudo-header of `H4` with B_LEN = 10, and the sum over it and `U1`. -/
theorem test_verifyV4_pseudoHeader :
    (assembleV4 (headerRegister h4) 10).toList.take 12 =
      [0xC0, 0xA8, 0x00, 0x01, 0xC0, 0xA8, 0x00, 0x02, 0x00, 0x11, 0x00, 0x0A] ∧
    streamSum ([0xC0, 0xA8, 0x00, 0x01, 0xC0, 0xA8, 0x00, 0x02, 0x00, 0x11, 0x00, 0x0A] ++ u1) = 0xFFFF := by decide
/-- VERIFY_V6's region is 40 bytes (R65): base 2^32 - 40 is accepted, one more is not. -/
theorem test_verifyV6_region :
    (after (exec .verifyV6 (idleWith 0xFFFFFFD8 0 0 0 []))).phase = .hdr ∧
    (after (exec .verifyV6 (idleWith 0xFFFFFFD9 0 0 0 []))).status.word = 0x206 := by decide
set_option maxRecDepth 4000 in
/-- V60: the pseudo-header of `H6`, and the sum over it and `U6`. -/
theorem test_verifyV6_pseudoHeader :
    (assembleV6 (headerRegister h6)).toList = a6 ++ b6 ++ [0, 0, 0, 0x0A, 0, 0, 0, 0x11] ∧
    streamSum (a6 ++ b6 ++ [0, 0, 0, 0x0A, 0, 0, 0, 0x11] ++ u6) = 0xFFFF := by decide

/-! ### The register port -/

/-- V77: STATUS = 0x30E, and the three writes that clear it. -/
theorem test_status_write :
    let t : Status := { busy := false, done := true, err := true, ovr := true, verdict := false, errCode := .bus }
    t.word = 0x30E ∧ (t.clearBits 2).word = 0x30C ∧ ((t.clearBits 2).clearBits 4).word = 0x008 ∧
    (((t.clearBits 2).clearBits 4).clearBits 8).word = 0 := by decide
/-- V20: PH0 to PH2 after the IPv4 pseudo-header. -/
theorem test_ph_window :
    phWord (assembleV4 (headerRegister h4) 10) 0 = 0xC0A80001 ∧ phWord (assembleV4 (headerRegister h4) 10) 1 = 0xC0A80002 ∧
    phWord (assembleV4 (headerRegister h4) 10) 2 = 0x0011000A ∧ phWord (assembleV4 (headerRegister h4) 10) 3 = 0 := by decide
/-- V70: the zero word, written after reset, ends with STATUS = 0x106. -/
theorem test_illegal_after_reset :
    (after (step (State.reset.withFetchWord 32 0))).status.word = 0x106 := by decide

/-! ### The host notation (R55, R56) -/

/-- R56: what CSUM2 and CLR expand to. -/
theorem test_pseudo_instructions :
    csum2 0x6000 3 0x6100 4 =
      [.wr 3 0x6000, .wr 4 3, .wr 5 0x6100, .wr 6 4, .wr 2 0x00000002, .poll 1 0x1 0x0] ∧
    clr = [.wr 1 0x0000000E] := by decide
/-- A POLL reads again until BUSY is 0: once while a FOLD runs, it stays at the head of the list. -/
theorem test_poll_repeats :
    (after (hostOp (.poll 1 1 0) (after (exec .fold State.reset)))).host = [.poll 1 1 0] ∧
    (after (hostOp (.poll 1 1 0) State.reset)).host = [] := by decide

/-! ### States of running commands, and that they keep the invariant -/

/-- A SUM over one byte, before its one stream step. -/
def sumRunning : State := after (exec .sum (idleWith 0x1000 1 0 0 [0x12]))

/-- A SUM over one byte at which the platform answers BUS_ERROR. -/
def sumRefused : State := after (exec .sum (idleWith 0x1000 1 0 0 []))

/-- A FOLD before its completion step. -/
def foldRunning : State := after (exec .fold { State.reset with accIn := 0x12345678 })

/-- A VERIFY_V4 just accepted. -/
def v4Running : State := after (exec .verifyV4 (idleWith 0x1000 0 0 0 h4))

/-- The same before its last header read. -/
def v4LastHeader : State := { v4Running with hpos := 8 }

/-- The same before its first stream step, its pseudo-header assembled from zero bytes. -/
def v4Stream : State :=
  { v4Running with hpos := 9, phase := .stream, hph := assembleV4 zeros40 0 }

/-- The same before its completion step. -/
def v4Finishing : State := { v4Stream with pos := 12, phase := .finish }

/-- A running command on a block whose result registers are still as after reset, from its hidden state's invariant. -/
theorem inv_of_running {s : State} {j : Job} (hj : s.job = some j) (hr : s.inReset = false) (hm : s.mem.wf)
    (hs : s.status = { Status.reset with busy := true }) (hc : s.sum16 = 0 ∧ s.cksum = 0) (hw : s.phLen = 0 ∧ s.ph = zeros40)
    (run : RunInv j s) : s.Inv where
  memory := hm
  busyIff := by rw [hs, hj]; rfl
  idleIff := by
    rw [hj]
    refine ⟨nofun, fun h => ?_⟩
    have := run.coherent
    simp [phaseCoherent, h] at this
  busyClear := by rw [hs]; exact fun _ => ⟨rfl, rfl, rfl⟩
  errIff := by rw [hs]; decide
  errVerdict := by rw [hs]; decide
  checksum := .inr hc
  verdict := by rw [hs]; nofun
  window := .inl hw
  running := by
    intro k hk
    rw [hj] at hk
    cases hk
    exact run
  settled := by rw [hs]; nofun
  underReset := by rw [hr]; nofun

theorem test_sumRunning_inv : sumRunning.Inv :=
  inv_of_running rfl rfl (by decide) rfl ⟨rfl, rfl⟩ ⟨rfl, rfl⟩
    ⟨by decide, by decide, by decide, by decide, by decide, by decide, by decide, by decide, by decide⟩
theorem test_sumRefused_inv : sumRefused.Inv :=
  inv_of_running rfl rfl (by decide) rfl ⟨rfl, rfl⟩ ⟨rfl, rfl⟩
    ⟨by decide, by decide, by decide, by decide, by decide, by decide, by decide, by decide, by decide⟩
theorem test_foldRunning_inv : foldRunning.Inv :=
  inv_of_running rfl rfl (by decide) rfl ⟨rfl, rfl⟩ ⟨rfl, rfl⟩
    ⟨by decide, by decide, by decide, by decide, by decide, by decide, by decide, by decide, by decide⟩
theorem test_v4Running_inv : v4Running.Inv :=
  inv_of_running rfl rfl (by decide) rfl ⟨rfl, rfl⟩ ⟨rfl, rfl⟩
    ⟨by decide, by decide, by decide, by decide, by decide, by decide, by decide, by decide, by decide⟩
theorem test_v4LastHeader_inv : v4LastHeader.Inv :=
  inv_of_running rfl rfl (by decide) rfl ⟨rfl, rfl⟩ ⟨rfl, rfl⟩
    ⟨by decide, by decide, by decide, by decide, by decide, by decide, by decide, by decide, by decide⟩
theorem test_v4Stream_inv : v4Stream.Inv :=
  inv_of_running rfl rfl (by decide) rfl ⟨rfl, rfl⟩ ⟨rfl, rfl⟩
    ⟨by decide, by decide, by decide, by decide, by decide, by decide, by decide, by decide, by decide⟩
theorem test_v4Finishing_inv : v4Finishing.Inv :=
  inv_of_running rfl rfl (by decide) rfl ⟨rfl, rfl⟩ ⟨rfl, rfl⟩
    ⟨by decide, by decide, by decide, by decide, by decide, by decide, by decide, by decide, by decide⟩

/-! ### Witnesses: for each statement with hypotheses, a state and operands that meet them, each clause by its own -/

/-- An idle block with some work behind it: an error acknowledged by nobody, IRQ_EN set. -/
def idleAfterError : State :=
  { idleWith 0x1000 1 0 0 [0x12] with
    irqEn := true
    status := { busy := false, done := true, err := true, ovr := true, verdict := false, errCode := .bus } }

theorem witness_CommandWordsAreTheTable :
    (0x7 ≤ (0x7 : Word).toNat ∧ (0x7 : Word).toNat ≤ 0xF) ∧ 0x7 ≤ (0xF : Word).toNat ∧ (0xF : Word).toNat ≤ 0xF := by decide

theorem witness_StepRunsTheWrittenCommand :
    (nextTurn { State.reset with host := [.wr 2 3] } = (.host, []) ∧ decode 3 = .ok .fold) ∧
    nextTurn { foldRunning with turns := [.engine, .host] } = (.engine, [.host]) ∧ nextTurn foldRunning = (.engine, []) ∧
    0x00000006 < 2 ^ 32 ∧ decode (BitVec.ofNat 32 0x00000006) = .ok .verifyV6 := by decide

theorem witness_HostTransactionsTakeEffectInOrder :
    nextTurn { State.reset with host := [.wr 2 3] } = (.host, []) ∧
    (nextTurn State.reset = (.host, []) ∧ State.reset.host = []) ∧
    nextTurn { foldRunning with turns := [.host], host := [.poll 1 1 0] } = (.host, []) ∧
    ∃ t, hostOp .publish foldRunning = .next t ∧ ∀ i mask val, HostOp.publish ≠ .poll i mask val :=
  ⟨by decide, by decide, by decide, _, rfl, fun _ _ _ => nofun⟩

theorem witness_AssertedResetClearsTheBlock : (assertReset foldRunning).inReset = true := by decide

theorem witness_ReservedAndReadOnlySlotsIgnoreWrites :
    (12 ≤ (12 : BitVec 5).toNat ∧ (12 : BitVec 5).toNat ≤ 15) ∧ (12 ≤ (15 : BitVec 5).toNat ∧ (15 : BitVec 5).toNat ≤ 15) ∧
    26 ≤ (26 : BitVec 5).toNat ∧ 26 ≤ (31 : BitVec 5).toNat ∧ 8 ≤ (8 : BitVec 5).toNat ∧ 8 ≤ (25 : BitVec 5).toNat := by
  decide

theorem witness_CtrlHoldsOnlyIrqEnable :
    idleAfterError.inReset = false ∧ (∃ t, portWrite 2 3 idleAfterError = .next t) ∧ ∃ t, engineStep foldRunning = .next t :=
  ⟨rfl, ⟨_, rfl⟩, _, rfl⟩

theorem witness_OperandRegistersHoldWhatIsWritten :
    State.reset.inReset = false ∧ ∃ t, engineStep sumRunning = .next t :=
  ⟨rfl, _, rfl⟩

theorem witness_StatusWriteClearsItsBits :
    idleAfterError.inReset = false ∧ sumRunning.Inv ∧ sumRunning.status.busy = true :=
  ⟨rfl, test_sumRunning_inv, rfl⟩

theorem witness_StatusReadHasItsFields : idleAfterError.inReset = false ∧ idleAfterError.status.word = 0x30E := by decide

theorem witness_ReadOnlySlotsShowTheirRegisters : v4Finishing.inReset = false ∧ 0 < 10 ∧ 9 < 10 := by decide

theorem witness_InterruptFollowsDoneAndEnable :
    (idleAfterError.inReset = false ∧ (2 : Word).getLsbD 1 = true ∧ ∃ t, portWrite 1 2 idleAfterError = .next t) ∧
    ((2 : Word).getLsbD 0 = false ∧ ∃ t, portWrite 0 2 idleAfterError = .next t) ∧
    (Ready idleAfterError ∧ ∃ t, exec .sum idleAfterError = .next t ∧ t.status.busy = true) ∧
    (∃ t, hostOp .assertReset idleAfterError = .next t) ∧
    (foldRunning.status.busy = true ∧ ∃ t, engineStep foldRunning = .next t ∧ t.status.busy = false) ∧
    ∃ t, portWrite 2 0 idleAfterError = .next t ∧ t.status.busy = false :=
  ⟨⟨rfl, by decide, _, rfl⟩, ⟨by decide, _, rfl⟩, ⟨by decide, _, rfl, rfl⟩, ⟨_, rfl⟩, ⟨rfl, _, rfl, rfl⟩, _, rfl, rfl⟩

theorem witness_StoredByteIsTheAnswer : (0 : Nat) ≠ (0xFFFFFFFF : Word).toNat ∧ (0xFFFFFFFF : Nat) ≠ 0 := by decide

theorem witness_BlockNeverWritesMemory :
    (∃ t, exec .sum idleAfterError = .next t) ∧ (∃ t, engineStep sumRunning = .next t) ∧
    ∃ t, portWrite 7 1 idleAfterError = .next t :=
  ⟨⟨_, rfl⟩, ⟨_, rfl⟩, _, rfl⟩

theorem witness_ReadReturnsTheAnswerOrAFreeByte :
    sumRunning.mem.answer 0x1001 = .busError ∧
    (sumRunning.mem.answer 0x1000 = .ok 0x12 ∧ 0x1000 ∉ sumRunning.disturbed) ∧
    0x1000 ∈ ({ sumRunning with disturbed := [0x1000] } : State).disturbed := by decide

theorem witness_UnsettledBytesAreFree :
    (sumRunning.status.busy = true ∧ (∃ j, sumRunning.job = some j ∧ jobCovers j (0x1000 : Word).toNat = true) ∧
      sumRunning.mem.answer (0x1000 : Word).toNat ≠ .ok 0x13 ∧ ∃ t, hostOp (.store 0x1000 0x13 true) sumRunning = .next t) ∧
    (∃ t, hostOp (.store 0x1000 0x13 false) sumRunning = .next t) ∧
    (Ready idleAfterError ∧ ∃ t, exec .sum idleAfterError = .next t ∧ t.status.busy = true) :=
  ⟨⟨rfl, ⟨_, rfl, by decide⟩, by decide, _, rfl⟩, ⟨_, rfl⟩, by decide, _, rfl, rfl⟩

theorem witness_EngineReadsOnlyTheRequestedAddress :
    (readRequest sumRunning = some 0x1000 ∧ Memory.answer [(0x1000, 0x12), (0x1001, 0x34)] 0x1000 = sumRunning.mem.answer 0x1000) ∧
    ∃ t, engineStep sumRunning = .next t :=
  ⟨by decide, _, rfl⟩

theorem witness_RunReadsEachByteOnceInOrder :
    ∃ t u, Ready (idleWith 0x1000 1 0 0 [0x12]) ∧ exec .sum (idleWith 0x1000 1 0 0 [0x12]) = .next t ∧ t.status.busy = true ∧
      RunsExactly 2 t u ∧ u.status.busy = false ∧ u.status.err = false :=
  ⟨_, _, by decide, rfl, rfl,
    ⟨rfl, fun k hk => by
      match k, hk with
      | 0, _ => exact ⟨_, rfl, rfl⟩
      | 1, _ => exact ⟨_, rfl, rfl⟩⟩,
    rfl, rfl⟩

/-- The boundary: a region that ends exactly at 2^32 (V72), and an empty region at the top (V40). -/
theorem witness_SumIsAccepted :
    (Ready (idleWith 0xFFFFFFFF 1 0 0 [0xAB]) ∧ (0xFFFFFFFF : Word).toNat + (1 : Word).toNat ≤ 2 ^ 32) ∧
    Ready (idleWith 0xFFFFFFFF 0 0 0 []) ∧ (idleWith 0xFFFFFFFF 0 0 0 []).aLen = 0 := by decide

theorem witness_Sum2IsAccepted :
    (Ready (idleWith 0xFFFFFFFF 1 0xFFFFFFFE 2 [0xAB]) ∧ (0xFFFFFFFF : Word).toNat + (1 : Word).toNat ≤ 2 ^ 32 ∧
      (0xFFFFFFFE : Word).toNat + (2 : Word).toNat ≤ 2 ^ 32) ∧
    Ready (idleWith 0xFFFFFFFF 0 0xFFFFFFFF 0 []) ∧ (idleWith 0xFFFFFFFF 0 0xFFFFFFFF 0 []).bLen = 0 := by decide

theorem witness_FoldIsAccepted : Ready idleAfterError := by decide

theorem witness_VerifyIpIsAccepted :
    Ready (idleWith 0xFFFFFFEC 0 0xFFFFFFFE 2 []) ∧ (0xFFFFFFEC : Word).toNat + 20 ≤ 2 ^ 32 ∧
    (0xFFFFFFFE : Word).toNat + (2 : Word).toNat ≤ 2 ^ 32 := by decide

theorem witness_VerifyV4IsAccepted :
    Ready (idleWith 0xFFFFFFEC 0 0xFFFFFFFF 0 []) ∧ (0xFFFFFFEC : Word).toNat + 20 ≤ 2 ^ 32 ∧
    (idleWith 0xFFFFFFEC 0 0xFFFFFFFF 0 []).bLen = 0 := by decide

theorem witness_VerifyV6IsAccepted :
    Ready (idleWith 0xFFFFFFD8 0 0xFFFFFFFE 2 []) ∧ (0xFFFFFFD8 : Word).toNat + 40 ≤ 2 ^ 32 ∧
    (0xFFFFFFFE : Word).toNat + (2 : Word).toNat ≤ 2 ^ 32 := by decide

theorem witness_CommandWhileBusyOnlySetsOvr : sumRunning.status.busy = true ∧ sumRunning.inReset = false := by decide

theorem witness_IllegalCommandEndsAtOnce :
    Ready idleAfterError ∧ (0x80000001 : Word).toNat / 16 ≠ 0 ∧ (0x10 : Word).toNat / 16 ≠ 0 ∧ (0 : Word).toNat % 16 = 0 ∧
    7 ≤ (7 : Word).toNat % 16 ∧ 7 ≤ (0xF : Word).toNat % 16 := by decide

/-- The boundaries: one byte too many at A (V73), at A for the verifiers, and at B with a legal and with an empty A. -/
theorem witness_RangeErrorNamesTheFirstBadRegion :
    (Ready (idleWith 0xFFFFFFFF 2 0 0 []) ∧ 0 < (2 : Word).toNat ∧ 2 ^ 32 < (0xFFFFFFFF : Word).toNat + (2 : Word).toNat) ∧
    2 ^ 32 < (0xFFFFFFED : Word).toNat + 20 ∧ 2 ^ 32 < (0xFFFFFFD9 : Word).toNat + 40 ∧
    (¬ (0 < (1 : Word).toNat ∧ 2 ^ 32 < (0xFFFFFFFF : Word).toNat + (1 : Word).toNat) ∧
      2 ^ 32 < (0xFFFFFFFE : Word).toNat + (3 : Word).toNat) ∧
    ¬ (0 < (0 : Word).toNat ∧ 2 ^ 32 < (0xFFFFFFFF : Word).toNat + (0 : Word).toNat) ∧
    ∃ t, exec .fold (idleWith 0xFFFFFFFF 5 0 0 []) = .next t :=
  ⟨by decide, by decide, by decide, by decide, by decide, _, rfl⟩

theorem witness_BusErrorEndsTheCommand :
    sumRefused.Inv ∧ readRequest sumRefused = some 0x1000 ∧ sumRefused.mem.answer 0x1000 = .busError :=
  ⟨test_sumRefused_inv, by decide, by decide⟩

/-- The first header read, and the last one. -/
theorem witness_HeaderStepLatchesOneByte :
    (∃ j, v4Running.Inv ∧ v4Running.job = some j ∧ v4Running.phase = .hdr ∧ (hdrOffsets j.op)[v4Running.hpos]? = some 9 ∧
      v4Running.mem.answer (j.aAddr.toNat + 9) = .ok 0x11 ∧ j.aAddr.toNat + 9 ∉ v4Running.disturbed) ∧
    ∃ j, v4LastHeader.Inv ∧ v4LastHeader.job = some j ∧ v4LastHeader.phase = .hdr ∧
      (hdrOffsets j.op)[v4LastHeader.hpos]? = some 19 ∧ v4LastHeader.mem.answer (j.aAddr.toNat + 19) = .ok 0x02 ∧
      j.aAddr.toNat + 19 ∉ v4LastHeader.disturbed ∧ v4LastHeader.hpos + 1 = (hdrOffsets j.op).length :=
  ⟨⟨_, test_v4Running_inv, rfl, rfl, rfl, by decide, by decide⟩,
    _, test_v4LastHeader_inv, rfl, rfl, rfl, by decide, by decide, rfl⟩

/-- A byte of memory, and a byte of the pseudo-header. -/
theorem witness_StreamStepTakesOneByte :
    (∃ j, sumRunning.Inv ∧ sumRunning.job = some j ∧ sumRunning.phase = .stream ∧
      streamSource j sumRunning.pos = .memory 0x1000 ∧ sumRunning.mem.answer 0x1000 = .ok 0x12 ∧ 0x1000 ∉ sumRunning.disturbed) ∧
    ∃ j, v4Stream.Inv ∧ v4Stream.job = some j ∧ v4Stream.phase = .stream ∧
      streamSource j v4Stream.pos = .pseudoHeader 0 ∧ (0 : Byte) = byteAt v4Stream.hph 0 :=
  ⟨⟨_, test_sumRunning_inv, rfl, rfl, by decide, by decide, by decide⟩, _, test_v4Stream_inv, rfl, rfl, by decide, by decide⟩

theorem witness_CompletionStepWritesTheResults :
    (∃ j, foldRunning.Inv ∧ foldRunning.job = some j ∧ foldRunning.phase = .finish) ∧
    ∃ j, v4Finishing.Inv ∧ v4Finishing.job = some j ∧ v4Finishing.phase = .finish :=
  ⟨⟨_, test_foldRunning_inv, rfl, rfl⟩, _, test_v4Finishing_inv, rfl, rfl⟩

theorem witness_FoldEndsWithinTwoPasses : (0xFFFF : Word).toNat < 2 ^ 16 ∧ (0 : Word).toNat < 2 ^ 16 := by decide

/-- The largest accumulator, with a word that makes it fold and one that does not. -/
theorem witness_AccumulatorNeverOverflows :
    (0x7FFFFFFF : Word).getLsbD 31 = false ∧ 0x80000000 ≤ (0x7FFFFFFF : Word).toNat + (1 : Half).toNat ∧
    (0x7FFFFFFF : Word).toNat + (0 : Half).toNat < 0x80000000 := by decide

theorem witness_FoldScheduleDoesNotMatter :
    (fitsThroughout 0 [(0xFFFF, true), (0x0001, false)] = true ∧ fitsThroughout 0 [(0xFFFF, false), (0x0001, false)] = true) ∧
    totalOf ([((0xFFFF : Half), true), (0x0001, false)].map Prod.fst) < 2 ^ 32 := by decide

theorem witness_WordOrderDoesNotMatter : (wordsOf [1, 2, 3, 4]).Perm (wordsOf [3, 4, 1, 2]) := by decide

/-- V44: `FF FF` verifies. -/
theorem witness_SingleByteChangeIsDetected :
    (0xFF : Byte) ≠ 0xFE ∧ verdictOf (complement16 (streamSum ([0xFF] ++ 0xFF :: []))) = true := by decide

theorem witness_IPv6LengthPlacementDoesNotMatter : (a6 ++ b6).length = 32 := by decide

/-- V1, and an empty buffer at the top of the address space. -/
theorem witness_SumRunGivesTheChecksum :
    (Ready (idleWith 0x1000 1 0 0 [0x12]) ∧ (idleWith 0x1000 1 0 0 [0x12]).hidden = [] ∧
      (0x1000 : Word).toNat + (1 : Word).toNat ≤ 2 ^ 32 ∧
      bytesAt (idleWith 0x1000 1 0 0 [0x12]).mem 0x1000 1 = some [0x12]) ∧
    (idleWith 0xFFFFFFFF 0 0 0 []).aLen = 0 ∧ bytesAt (idleWith 0xFFFFFFFF 0 0 0 []).mem 0xFFFFFFFF 0 = some [] := by decide

/-- V57's splice: one byte in each buffer, and an empty second buffer. -/
theorem witness_Sum2RunGivesTheChecksum :
    (Ready (idleWith 0x1000 1 0x1001 1 [0xAB, 0xCD]) ∧ (idleWith 0x1000 1 0x1001 1 [0xAB, 0xCD]).hidden = [] ∧
      bytesAt (idleWith 0x1000 1 0x1001 1 [0xAB, 0xCD]).mem 0x1000 1 = some [0xAB] ∧
      bytesAt (idleWith 0x1000 1 0x1001 1 [0xAB, 0xCD]).mem 0x1001 1 = some [0xCD]) ∧
    bytesAt (idleWith 0x1000 1 0xFFFFFFFF 0 [0xAB]).mem 0xFFFFFFFF 0 = some [] := by decide

theorem witness_FoldRunFoldsAccIn : Ready { State.reset with accIn := 0xFFFFFFFF } := by decide

/-- V10. -/
theorem witness_VerifyIpRunChecksTheHeader :
    Ready (idleWith 0x2000 0 0 0 h1) ∧ (idleWith 0x2000 0 0 0 h1).hidden = [] ∧ (0x2000 : Word).toNat + 20 ≤ 2 ^ 32 ∧
    (idleWith 0x2000 0 0 0 h1).bLen = 0 ∧ bytesAt (idleWith 0x2000 0 0 0 h1).mem 0x2000 20 = some h1 ∧
    bytesAt (idleWith 0x2000 0 0 0 h1).mem 0 0 = some [] := by decide

/-- V24: the pseudo-header alone. -/
theorem witness_VerifyV4RunChecksThePayload :
    Ready (idleWith 0x3000 0 0 0 h4) ∧ (idleWith 0x3000 0 0 0 h4).hidden = [] ∧ (0x3000 : Word).toNat + 20 ≤ 2 ^ 32 ∧
    (idleWith 0x3000 0 0 0 h4).bLen = 0 ∧
    headerBytesAt (idleWith 0x3000 0 0 0 h4).mem 0x3000 .verifyV4 (headerRegister h4) = true ∧
    bytesAt (idleWith 0x3000 0 0 0 h4).mem 0 0 = some [] := by decide

set_option maxRecDepth 4000 in
/-- V65: the pseudo-header alone. -/
theorem witness_VerifyV6RunChecksThePayload :
    Ready (idleWith 0x4000 0 0 0 h6) ∧ (idleWith 0x4000 0 0 0 h6).hidden = [] ∧ (0x4000 : Word).toNat + 40 ≤ 2 ^ 32 ∧
    (idleWith 0x4000 0 0 0 h6).bLen = 0 ∧
    headerBytesAt (idleWith 0x4000 0 0 0 h6).mem 0x4000 .verifyV6 (headerRegister h6) = true ∧
    bytesAt (idleWith 0x4000 0 0 0 h6).mem 0 0 = some [] := by decide

/-- V75: `OK(0xAA)` at 0x5000, `BUS_ERROR` at 0x5001. -/
theorem witness_SumRunStopsAtTheFirstBusError :
    Ready (idleWith 0x5000 4 0 0 [0xAA]) ∧ (idleWith 0x5000 4 0 0 [0xAA]).hidden = [] ∧ 1 < (4 : Word).toNat ∧
    (0x5000 : Word).toNat + (4 : Word).toNat ≤ 2 ^ 32 ∧
    bytesAt (idleWith 0x5000 4 0 0 [0xAA]).mem 0x5000 1 = some [0xAA] ∧
    (idleWith 0x5000 4 0 0 [0xAA]).mem.answer (0x5000 + 1) = .busError := by decide

theorem witness_EveryRunningCommandEnds : ∃ j, sumRunning.Inv ∧ sumRunning.job = some j := ⟨_, test_sumRunning_inv, rfl⟩

/-- A FOLD that runs while the host writes ACC_IN and another command. -/
def foldWithTraffic : State :=
  { foldRunning with host := [.wr 7 0, .wr 2 1], turns := [.host, .host, .engine] }

theorem test_foldWithTraffic_inv : foldWithTraffic.Inv :=
  inv_of_running rfl rfl (by decide) rfl ⟨rfl, rfl⟩ ⟨rfl, rfl⟩
    ⟨by decide, by decide, by decide, by decide, by decide, by decide, by decide, by decide, by decide⟩

theorem witness_HostTrafficDoesNotChangeARun :
    ∃ u j, foldWithTraffic.Inv ∧ foldWithTraffic.job = some j ∧ foldWithTraffic.host.all (respects j) = true ∧
      foldWithTraffic.turns.getLast? = some .engine ∧ foldWithTraffic.turns.count .engine = 1 ∧
      RunsExactly 1 foldWithTraffic u :=
  ⟨_, _, test_foldWithTraffic_inv, rfl, by decide, by decide, by decide, rfl, fun k hk => by
    obtain rfl : k = 0 := by omega
    exact ⟨_, rfl, rfl⟩⟩

theorem witness_ResultsHoldWhileBusy :
    ∃ t, v4Running.Inv ∧ v4Running.status.busy = true ∧ step v4Running = .next t ∧ t.status.busy = true :=
  ⟨_, test_v4Running_inv, rfl, rfl, rfl⟩

/-- An illegal word (V70), the same while ERR is 1 already, and a refused read (V75). -/
theorem witness_ErrorChangesNoResult :
    (∃ t, step (State.reset.withFetchWord 32 0) = .next t ∧ t.status.err = true) ∧
    (∃ t, step (idleAfterError.withFetchWord 32 0) = .next t ∧ Ready (idleAfterError.withFetchWord 32 0) ∧
      nextTurn (idleAfterError.withFetchWord 32 0) = (.host, []) ∧ (idleAfterError.withFetchWord 32 0).host = [.wr 2 0] ∧
      t.status.err = true) ∧
    ∃ t, step sumRefused = .next t ∧ sumRefused.status.err = false ∧ t.status.err = true :=
  ⟨⟨_, rfl, rfl⟩, ⟨_, rfl, by decide, by decide, by decide, rfl⟩, _, rfl, rfl, rfl⟩

/-- BUS (V75), RANGE (V73) and reset. -/
theorem witness_FaultAddrIsWrittenByRangeAndBus :
    (∃ t, step sumRefused = .next t ∧ t.faultAddr ≠ sumRefused.faultAddr) ∧
    (∃ t, step ((idleWith 0xFFFFFFFF 2 0 0 []).withFetchWord 32 1) = .next t ∧ t.faultAddr ≠ 0) ∧
    ∃ t, step { State.reset with faultAddr := 1, host := [.assertReset] } = .next t ∧ t.faultAddr ≠ 1 :=
  ⟨⟨_, rfl, by decide⟩, ⟨_, rfl, by decide⟩, _, rfl, by decide⟩

theorem witness_ResultsAreWrittenByCompletion : ∃ t, step foldRunning = .next t ∧ ¬ SameResults foldRunning t :=
  ⟨_, rfl, by decide⟩

theorem witness_EveryStepKeepsTheInvariant : ∃ t, v4LastHeader.Inv ∧ step v4LastHeader = .next t :=
  ⟨_, test_v4LastHeader_inv, rfl⟩

theorem witness_NoReachableStepStops : v4Finishing.Inv := test_v4Finishing_inv

end Sys2Proof.Tests
end

namespace Sys2Proof.Machine

/-! ### The slot map and the register port (R10 to R24) -/

/-- CMD has one index (R10). -/
theorem eq_cmdIndex_of_slotOf : ∀ i : BitVec 5, slotOf i = .cmd → i = 2 := by decide

theorem slotOf_reserved : ∀ i : BitVec 5, (12 ≤ i.toNat ∧ i.toNat ≤ 15) ∨ 26 ≤ i.toNat → slotOf i = .reserved := by decide

theorem slotOf_ph : ∀ k : Fin 10, slotOf (BitVec.ofNat 5 (16 + k.val)) = .ph k := by decide

/-- The slots that take a write (R11). -/
def slotWritable (r : Slot) : Bool :=
  match r with
  | .ctrl | .status | .cmd | .aAddr | .aLen | .bAddr | .bLen | .accIn => true
  | .sum16 | .cksum | .faultAddr | .phLen | .ph _ | .reserved => false

theorem slotOf_not_writable : ∀ i : BitVec 5, 8 ≤ i.toNat → slotWritable (slotOf i) = false := by decide

theorem writeSlot_of_not_writable {r : Slot} (h : slotWritable r = false) (v : Word) (s : State) : writeSlot r v s = s := by
  cases r
  case sum16 | cksum | faultAddr | phLen | ph k | reserved => rfl
  all_goals cases h

theorem portRead_released {s : State} (h : s.inReset = false) (i : BitVec 5) : portRead s i = readSlot s (slotOf i) := by
  simp [portRead, h]

theorem portWrite_released {s : State} (h : s.inReset = false) {i : BitVec 5} (hi : slotOf i ≠ .cmd) (v : Word) :
    portWrite i v s = .next (writeSlot (slotOf i) v s) := by
  simp [portWrite, h, hi]

theorem portWrite_of_not_writable {i : BitVec 5} (h : slotWritable (slotOf i) = false) (v : Word) (s : State) :
    portWrite i v s = .next s := by
  rcases portWrite_cases i v s with ⟨hi, -⟩ | ⟨hi, -⟩ | ⟨-, -, hw⟩ | ⟨-, -, hw⟩
  · rw [hi] at h; cases h
  · rw [hi] at h; cases h
  · exact hw
  · rw [hw, writeSlot_of_not_writable h]

/-- Settles O8, by the slot map and the slots that take a write. -/
theorem reservedAndReadOnlySlotsIgnoreWrites : Obligations.ReservedAndReadOnlySlotsIgnoreWrites := fun s i =>
  ⟨fun hi => by rw [portRead, slotOf_reserved i hi]; rfl,
   fun hi v => portWrite_of_not_writable (slotOf_not_writable i hi) v s⟩

theorem readSlot_reset (r : Slot) : readSlot State.reset r = 0 := by
  cases r
  case ph k => simp [readSlot, phWord, State.reset, byteAt_zeros40]
  all_goals rfl

/-- Settles O6: each field is as `State.reset` says, and each slot reads 0 from it. -/
theorem resetSetsEveryRegister : Obligations.ResetSetsEveryRegister := by
  refine ⟨fun i => readSlot_reset (slotOf i), rfl, rfl, rfl, rfl, rfl, rfl, rfl, rfl, rfl, rfl, rfl, byteAt_zeros40, rfl, rfl,
    rfl, rfl, rfl, rfl, byteAt_zeros40, byteAt_zeros40, rfl⟩

/-! ### Register words as naturals (R12 to R14, R24) -/

/-- Concatenation as a sum of naturals. -/
theorem toNat_append_add {m n : Nat} (x : BitVec m) (y : BitVec n) : (x ++ y).toNat = x.toNat * 2 ^ n + y.toNat := by
  rw [BitVec.toNat_append, ← Nat.shiftLeft_add_eq_or_of_lt y.isLt, Nat.shiftLeft_eq]

theorem toNat_ctrlWord (b : Bool) : (ctrlWord b).toNat = b.toNat := by
  rw [ctrlWord, toNat_append_add]
  simp

theorem toNat_phWord (ph : Vector Byte 40) (k : Fin 10) :
    (phWord ph k).toNat =
      (byteAt ph (4 * k)).toNat * 2 ^ 24 + (byteAt ph (4 * k + 1)).toNat * 2 ^ 16 +
        (byteAt ph (4 * k + 2)).toNat * 2 ^ 8 + (byteAt ph (4 * k + 3)).toNat := by
  simp only [phWord, toNat_append_add]
  omega

theorem toNat_statusWord (t : Status) :
    t.word.toNat = t.busy.toNat + 2 * t.done.toNat + 4 * t.err.toNat + 8 * t.ovr.toNat + 16 * t.verdict.toNat +
      256 * t.errCode.value.toNat := by
  simp only [Status.word, toNat_append_add, BitVec.toNat_ofBool, BitVec.ofNat_eq_ofNat, BitVec.toNat_ofNat,
    Nat.zero_mod]
  omega

/-- Settles O12, from the value of a STATUS word as a natural. -/
theorem statusReadHasItsFields : Obligations.StatusReadHasItsFields := by
  intro s hr
  rw [portRead_released hr]
  refine (toNat_statusWord s.status).trans ?_
  cases s.status.errCode <;> rfl

/-- Settles O13, slot by slot through `portRead_released`. -/
theorem readOnlySlotsShowTheirRegisters : Obligations.ReadOnlySlotsShowTheirRegisters := by
  intro s hr
  simp only [portRead_released hr]
  refine ⟨rfl, ?_, ?_, rfl, ?_, fun k hk => ?_⟩
  · exact BitVec.toNat_setWidth_of_le (by decide)
  · exact BitVec.toNat_setWidth_of_le (by decide)
  · exact BitVec.toNat_setWidth_of_le (by decide)
  · rw [slotOf_ph ⟨k, hk⟩]
    exact toNat_phWord s.ph ⟨k, hk⟩

/-! ### What commands, the engine and the register port leave unchanged -/

theorem issue_frame (op : Instr) (s : State) : SameOperands s (issue op s) ∧ SameOutside s (issue op s) := by
  rcases issue_cases op s with ⟨-, hi⟩ | ⟨-, -, hi⟩ | ⟨-, r, -, hi⟩ | ⟨-, -, hi⟩ <;> rw [hi] <;>
    exact ⟨⟨rfl, rfl, rfl, rfl, rfl, rfl⟩, fun _ => rfl, rfl, rfl, rfl, rfl, rfl⟩

theorem issueIllegal_frame (s : State) : SameOperands s (issueIllegal s) ∧ SameOutside s (issueIllegal s) := by
  rcases issueIllegal_cases s with ⟨-, hi⟩ | ⟨-, -, hi⟩ | ⟨-, hi⟩ <;> rw [hi] <;>
    exact ⟨⟨rfl, rfl, rfl, rfl, rfl, rfl⟩, fun _ => rfl, rfl, rfl, rfl, rfl, rfl⟩

theorem writeCmd_frame {s t : State} {c : Word} (h : writeCmd c s = .next t) : SameOperands s t ∧ SameOutside s t := by
  rcases writeCmd_cases c s with ⟨op, -, hi⟩ | ⟨e, -, hi⟩ <;> obtain rfl := Host.Outcome.next.inj (hi.symm.trans h)
  · exact issue_frame op s
  · exact issueIllegal_frame s

theorem engineStep_frame {s t : State} (h : engineStep s = .next t) : SameOperands s t ∧ SameOutside s t := by
  obtain ⟨-, rfl⟩ | ⟨-, -, j, -, hc, -, rfl⟩ := engineStep_cases h
  · exact ⟨⟨rfl, rfl, rfl, rfl, rfl, rfl⟩, fun _ => rfl, rfl, rfl, rfl, rfl, rfl⟩
  rcases engineMove_cases hc with ⟨a, hm⟩ | ⟨-, b, d, hm⟩ | ⟨-, b, d, hm⟩ | ⟨-, hm⟩ <;> rw [hm] <;>
    exact ⟨⟨rfl, rfl, rfl, rfl, rfl, rfl⟩, fun _ => rfl, rfl, rfl, rfl, rfl, rfl⟩

theorem writeSlot_sameOutside (r : Slot) (v : Word) (s : State) : SameOutside s (writeSlot r v s) := by
  cases r <;> exact ⟨fun _ => rfl, rfl, rfl, rfl, rfl, rfl⟩

theorem portWrite_sameOutside {s t : State} {i : BitVec 5} {v : Word} (hw : portWrite i v s = .next t) :
    SameOutside s t := by
  rcases portWrite_cases i v s with ⟨-, op, -, hi⟩ | ⟨-, -, hi⟩ | ⟨-, -, hi⟩ | ⟨-, -, hi⟩ <;>
    obtain rfl := Host.Outcome.next.inj (hi.symm.trans hw)
  · exact (issue_frame op s).2
  · exact (issueIllegal_frame s).2
  · exact ⟨fun _ => rfl, rfl, rfl, rfl, rfl, rfl⟩
  · exact writeSlot_sameOutside _ v s

/-- Settles O9: IRQ_EN is among what CMD writes and the engine leave as it is. -/
theorem ctrlHoldsOnlyIrqEnable : Obligations.CtrlHoldsOnlyIrqEnable :=
  ⟨fun _ v hr => portWrite_released hr (by decide) v,
   fun s hr => by rw [portRead_released hr]; exact toNat_ctrlWord s.irqEn,
   fun _ _ _ h => (writeCmd_frame h).1.1,
   fun _ _ h => (engineStep_frame h).1.1⟩

/-- Settles O10, by the register port on each operand slot and the frame of the engine's turn. -/
theorem operandRegistersHoldWhatIsWritten : Obligations.OperandRegistersHoldWhatIsWritten := by
  refine ⟨fun s v hr => ?_, fun s hr => ?_, fun _ _ h => (engineStep_frame h).1⟩
  · exact ⟨portWrite_released hr (by decide) v, portWrite_released hr (by decide) v, portWrite_released hr (by decide) v,
      portWrite_released hr (by decide) v, portWrite_released hr (by decide) v⟩
  · exact ⟨portRead_released hr 3, portRead_released hr 4, portRead_released hr 5, portRead_released hr 6,
      portRead_released hr 7⟩

/-- One read of a POLL moves the word read, and puts the POLL back in front of the host's list if it has to read again. -/
theorem pollOnce_cases (i : BitVec 5) (mask val : Word) (s : State) :
    pollOnce i mask val s = s.setLastRead (portRead s i) ∨
      pollOnce i mask val s = (s.setLastRead (portRead s i)).setHost (.poll i mask val :: s.host) := by
  unfold pollOnce
  split
  · exact .inl rfl
  · exact .inr rfl

/-- A transaction touches neither the schedule nor the rest of the host's list, but a POLL may stand in front of it again. -/
theorem hostOp_lists {s t : State} {o : HostOp} (ho : hostOp o s = .next t) :
    t.turns = s.turns ∧ (t.host = s.host ∨ t.host = o :: s.host) := by
  cases o
  case wr i v =>
    obtain ⟨-, -, -, hhost, hturns, -⟩ := portWrite_sameOutside ho
    exact ⟨hturns, .inl hhost⟩
  all_goals obtain rfl := Host.Outcome.next.inj ho
  case poll i mask val =>
    rcases pollOnce_cases i mask val s with hp | hp <;> rw [hp]
    · exact ⟨rfl, .inl rfl⟩
    · exact ⟨rfl, .inr rfl⟩
  all_goals exact ⟨rfl, .inl rfl⟩

/-- The engine ends a command or leaves its job as it is. -/
theorem engineStep_busy_job {s t : State} (h : engineStep s = .next t) (hb : t.status.busy = true) : t.job = s.job := by
  obtain ⟨-, rfl⟩ | ⟨-, -, j, -, hc, -, rfl⟩ := engineStep_cases h
  · rfl
  rcases engineMove_cases hc with ⟨a, hm⟩ | ⟨-, b, d, hm⟩ | ⟨-, b, d, hm⟩ | ⟨-, hm⟩ <;> rw [hm] at hb ⊢
  · cases hb
  · rfl
  · rfl
  · cases hb

/-! ### A write to STATUS (R15) -/

theorem State.Inv.busy_of_job {s : State} {j : Job} (h : s.Inv) (hj : s.job = some j) : s.status.busy = true := by
  rw [h.busyIff, hj]
  rfl

/-- Reset is released while a command runs (R106). -/
theorem State.Inv.released {s : State} (h : s.Inv) (hb : s.status.busy = true) : s.inReset = false := by
  refine Bool.eq_false_iff.2 fun hr => ?_
  have : s.status.busy = false := (congrArg (fun x => x.status.busy) (h.underReset hr) :)
  rw [hb] at this
  cases this

theorem and_not_eq_ite (a b : Bool) : (a && !b) = if b then false else a := by
  cases b <;> simp

/-- The write-1-to-clear bits, field by field (R15). -/
theorem clearBits_eq (t : Status) (v : Word) :
    t.clearBits v =
      { busy := t.busy, done := if v.getLsbD 1 then false else t.done, err := if v.getLsbD 2 then false else t.err
        ovr := if v.getLsbD 3 then false else t.ovr, verdict := t.verdict
        errCode := if v.getLsbD 2 then .none else t.errCode } := by
  simp only [Status.clearBits, and_not_eq_ite]

/-- While a command runs, a write to STATUS changes only OVR (R15). -/
theorem clearBits_running {s : State} (h : s.Inv) (hb : s.status.busy = true) (v : Word) :
    s.status.clearBits v = { s.status with ovr := s.status.ovr && !v.getLsbD 3 } := by
  obtain ⟨hd, he, -⟩ := h.busyClear hb
  have hc := h.errIff.2 he
  simp [Status.clearBits, hd, he, hc]

/-- Settles O11; while BUSY = 1 the invariant has DONE, ERR and ERR_CODE at 0, so that only OVR is left to clear. -/
theorem statusWriteClearsItsBits : Obligations.StatusWriteClearsItsBits := by
  refine ⟨fun s v hr => ?_, fun s v h hb => ?_⟩
  · rw [portWrite_released hr (by decide), ← clearBits_eq]
    rfl
  · rw [portWrite_released (h.released hb) (by decide), ← and_not_eq_ite, ← clearBits_running h hb]
    rfl

/-! ### The turn of each agent (R9, R47) -/

theorem nextTurn_of_cons {s : State} {a : Agent} {l : List Agent} (h : s.turns = a :: l) : nextTurn s = (a, l) := by
  simp [nextTurn, h]

theorem step_host {s : State} {turns : List Agent} (h : nextTurn s = (.host, turns)) : step s = hostStep (s.setTurns turns) := by
  simp [step, h]

theorem step_engine {s : State} {turns : List Agent} (h : nextTurn s = (.engine, turns)) :
    step s = engineStep (s.setTurns turns) := by
  simp [step, h]

theorem hostStep_cons {s : State} {o : HostOp} {rest : List HostOp} (h : s.host = o :: rest) :
    hostStep s = hostOp o (s.setHost rest) := by
  simp [hostStep, h]

/-- A turn of the host that has a transaction left does it, and any other does nothing. -/
theorem hostStep_cases {s t : State} (h : hostStep s = .next t) :
    (s.host = [] ∧ t = s) ∨ ∃ o rest, s.host = o :: rest ∧ hostOp o (s.setHost rest) = .next t := by
  cases hh : s.host with
  | nil => exact .inl ⟨rfl, by simpa [hostStep, hh] using h.symm⟩
  | cons o rest => exact .inr ⟨o, rest, rfl, (hostStep_cons hh).symm.trans h⟩

theorem hostStep_next (s : State) : ∃ t, hostStep s = .next t := by
  cases hh : s.host with
  | nil => exact ⟨s, by simp [hostStep, hh]⟩
  | cons o rest => exact hostStep_cons hh ▸ hostOp_next o (s.setHost rest)

theorem portWrite_cmd {c : Word} {i : Instr} (h : decode c = .ok i) (s : State) : portWrite 2 c s = exec i s := by
  show writeCmd c s = exec i s
  simp only [writeCmd, h]

theorem step_cmd {s : State} {c : Word} {i : Instr} {rest : List HostOp} {turns : List Agent}
    (hn : nextTurn s = (.host, turns)) (hh : s.host = .wr 2 c :: rest) (hd : decode c = .ok i) :
    step s = exec i ((s.setTurns turns).setHost rest) := by
  have h' : (s.setTurns turns).host = .wr 2 c :: rest := hh
  rw [step_host hn, hostStep_cons h']
  exact portWrite_cmd hd _

/-- Settles O4; `withFetchWord` only puts the write and a turn of the host in front. -/
theorem stepRunsTheWrittenCommand : Obligations.StepRunsTheWrittenCommand := by
  refine ⟨fun s c i rest turns hn hh hd => step_cmd hn hh hd, fun s turns => step_engine, fun s w i hw hd => ?_⟩
  refine step_cmd (s := s.withFetchWord 32 w) (turns := s.turns) (rest := s.host) (c := BitVec.ofNat 32 w) rfl ?_ hd
  show HostOp.wr cmdIndex (BitVec.ofNat 32 (w % 2 ^ 32)) :: s.host = _
  rw [Nat.mod_eq_of_lt hw]
  rfl

theorem run_succ {s t : State} (h : step s = .next t) (k : Nat) : core.run (k + 1) s = core.run k t := by
  have : core.step s = .next t := h
  simp only [Host.Core.run, this]

theorem runsExactly_zero {s u : State} : RunsExactly 0 s u ↔ u = s :=
  ⟨fun ⟨h, _⟩ => (Host.Outcome.next.inj h).symm, fun e => e ▸ ⟨rfl, fun k hk => absurd hk (Nat.not_lt_zero k)⟩⟩

/-- A run of `n + 1` turns is a turn taken while BUSY = 1 and a run of `n` turns from where it leads. -/
theorem runsExactly_succ {n : Nat} {s u : State} :
    RunsExactly (n + 1) s u ↔ s.status.busy = true ∧ ∃ m, engineStep s = .next m ∧ RunsExactly n m u := by
  constructor
  · rintro ⟨hrun, hbusy⟩
    obtain ⟨m₀, h₀, hb⟩ := hbusy 0 (Nat.succ_pos n)
    obtain rfl := Host.Outcome.next.inj h₀
    refine ⟨hb, ?_⟩
    cases hs : engineStep s with
    | next m =>
      refine ⟨m, rfl, by simpa [engineRun, hs] using hrun, fun k hk => ?_⟩
      simpa [engineRun, hs] using hbusy (k + 1) (Nat.succ_lt_succ hk)
    | fault f => simp [engineRun, hs] at hrun
    | refused r => simp [engineRun, hs] at hrun
  · rintro ⟨hb, m, hs, hrun, hbusy⟩
    refine ⟨by simpa [engineRun, hs] using hrun, fun k hk => ?_⟩
    cases k with
    | zero => exact ⟨s, rfl, hb⟩
    | succ k => simpa [engineRun, hs] using hbusy k (Nat.lt_of_succ_lt_succ hk)

/-! ### The memory behind the read port (R31, R32) -/

theorem Memory.answer_set_same (m : Memory) (a : Nat) (x : Byte) : (m.set a x).answer a = .ok x := by
  induction m with
  | nil => simp [Memory.set, Memory.answer]
  | cons c m ih =>
    obtain ⟨k, v⟩ := c
    unfold Memory.set
    split_ifs with hlt heq
    · simp [Memory.answer]
    · simp [Memory.answer]
    · simp [Memory.answer, Ne.symm heq, ih]

theorem Memory.answer_set_ne (m : Memory) {a b : Nat} (h : b ≠ a) (x : Byte) : (m.set a x).answer b = m.answer b := by
  induction m with
  | nil => simp [Memory.set, Memory.answer, h.symm]
  | cons c m ih =>
    obtain ⟨k, v⟩ := c
    unfold Memory.set
    split_ifs with hlt heq
    · simp [Memory.answer, h.symm]
    · simp [Memory.answer, h.symm, ← heq]
    · simp [Memory.answer, ih]

theorem Memory.deny_cons (k : Nat) (v : Byte) (m : Memory) (a : Nat) :
    Memory.deny ((k, v) :: m) a = if k = a then m.deny a else (k, v) :: m.deny a := by
  by_cases h : k = a <;> simp [Memory.deny, h]

theorem Memory.answer_deny_same (m : Memory) (a : Nat) : (m.deny a).answer a = .busError := by
  induction m with
  | nil => rfl
  | cons c m ih =>
    obtain ⟨k, v⟩ := c
    rw [Memory.deny_cons]
    split_ifs with h
    · exact ih
    · simp [Memory.answer, h, ih]

theorem Memory.answer_deny_ne (m : Memory) {a b : Nat} (h : b ≠ a) : (m.deny a).answer b = m.answer b := by
  induction m with
  | nil => rfl
  | cons c m ih =>
    obtain ⟨k, v⟩ := c
    rw [Memory.deny_cons]
    split_ifs with hk
    · simp [Memory.answer, hk, h.symm, ih]
    · simp [Memory.answer, ih]

/-- Settles O15, by what `Memory.set` and `Memory.deny` leave in a memory list, by induction on the list. -/
theorem storedByteIsTheAnswer : Obligations.StoredByteIsTheAnswer :=
  ⟨fun s _ x _ => ⟨_, rfl, s.mem.answer_set_same _ x, fun _ hb => s.mem.answer_set_ne hb x, rfl⟩,
   fun s _ => ⟨_, rfl, s.mem.answer_deny_same _, fun _ hb => s.mem.answer_deny_ne hb, rfl⟩,
   fun m _ _ x => ⟨m.answer_set_same _ x, fun hb => m.answer_set_ne hb x, m.answer_deny_same _, fun hb => m.answer_deny_ne hb⟩⟩

/-! ### The accumulator (R27, R59) -/

theorem toNat_foldPass (v : Word) : (foldPass v).toNat = v.toNat % 65536 + v.toNat / 65536 := by
  have := v.isLt
  simp only [foldPass, BitVec.toNat_add, BitVec.toNat_setWidth, toNat_lowHalf, toNat_highHalf]
  omega

theorem bit31_eq_false {v : Word} : v.getLsbD 31 = false ↔ v.toNat < 2 ^ 31 := by
  rw [getLsbD_31, decide_eq_false_iff_not, Nat.not_le]

/-- With bit 31 clear, a word is added without leaving 32 bits, so what is accumulated is the plain sum or one fold of it. -/
theorem toNat_accumulate {acc : Word} (h : acc.getLsbD 31 = false) (w : Half) :
    (accumulate acc w).toNat =
      if acc.toNat + w.toNat < 2 ^ 31 then acc.toNat + w.toNat
      else (acc.toNat + w.toNat) % 65536 + (acc.toNat + w.toNat) / 65536 := by
  have hw := w.isLt
  have ha : acc.toNat < 2 ^ 31 := bit31_eq_false.1 h
  have hv : (acc + w.setWidth 32).toNat = acc.toNat + w.toNat := by
    rw [BitVec.toNat_add, BitVec.toNat_setWidth]
    omega
  simp only [accumulate, getLsbD_31, hv, decide_eq_true_eq]
  split
  · rw [toNat_foldPass, hv, if_neg (by omega)]
  · rw [hv, if_pos (by omega)]

theorem accumulate_bit31 {acc : Word} (h : acc.getLsbD 31 = false) (w : Half) : (accumulate acc w).getLsbD 31 = false := by
  have hw := w.isLt
  have ha : acc.toNat < 2 ^ 31 := bit31_eq_false.1 h
  rw [bit31_eq_false, toNat_accumulate h]
  split <;> omega

/-- Settles O36, from the value of `accumulate` as a natural: the plain sum, or one fold of it. -/
theorem accumulatorNeverOverflows : Obligations.AccumulatorNeverOverflows := by
  intro acc w h
  have hw := w.isLt
  have ha : acc.toNat < 2 ^ 31 := bit31_eq_false.1 h
  have hacc := toNat_accumulate h w
  refine ⟨by omega, accumulate_bit31 h w, fun hge => ?_, fun hlt => ?_, ?_, ?_⟩
  · rw [hacc, if_neg (by omega)]
    omega
  · rw [hacc, if_pos (by omega)]
  · rw [hacc]
    split <;> omega
  · rw [← BitVec.toNat_inj, ← BitVec.toNat_inj (x := acc), ← BitVec.toNat_inj (x := w), hacc]
    simp only [BitVec.ofNat_eq_ofNat, BitVec.toNat_ofNat, Nat.zero_mod]
    split <;> omega

theorem complement16_eq_not (x : Half) : complement16 x = ~~~x := BitVec.xor_allOnes

/-! ### What one step does to the results, FAULT_ADDR and ERR -/

/-- What one step can do to the results, FAULT_ADDR and ERR, with the next state in full where it does something to them. -/
inductive StepEffect (s t : State) : Prop
  /-- Reset is asserted. -/
  | reset (turns : List Agent) (rest : List HostOp) (turn : nextTurn s = (.host, turns))
      (op : s.host = .assertReset :: rest) (next : t = assertReset ((s.setTurns turns).setHost rest))
  /-- A command ends in the step in which it is written: with RANGE, or as illegal (R92, R93). -/
  | rejected (c : Word) (turns : List Agent) (rest : List HostOp) (code : ErrCode) (addr : Option Word)
      (turn : nextTurn s = (.host, turns)) (op : s.host = .wr 2 c :: rest) (ready : Ready s)
      (cause : code = .range ∨ addr = none)
      (next : t = endError code addr (((s.setTurns turns).setHost rest).setStatus s.status.takeCommand))
  /-- A command is accepted (R65). -/
  | accepted (c : Word) (turns : List Agent) (rest : List HostOp) (j : Job)
      (turn : nextTurn s = (.host, turns)) (op : s.host = .wr 2 c :: rest) (ready : Ready s)
      (next : t = startJob j (((s.setTurns turns).setHost rest).setStatus s.status.takeCommand))
  /-- The engine's read is refused (R94). -/
  | busError (turns : List Agent) (a : Word) (turn : nextTurn s = (.engine, turns)) (busy : s.status.busy = true)
      (next : t = endError .bus (some a) (s.setTurns turns))
  /-- The running command completes (R68). -/
  | completed (turns : List Agent) (j : Job) (turn : nextTurn s = (.engine, turns)) (busy : s.status.busy = true)
      (job : s.job = some j) (phase : s.phase = .finish) (next : t = complete j (s.setTurns turns))
  /-- Any other step. -/
  | other (results : SameResults s t) (fault : t.faultAddr = s.faultAddr) (err : t.status.err = true → s.status.err = true)
      (notTaken : ∀ c turns rest, nextTurn s = (.host, turns) → s.host = .wr 2 c :: rest → ¬ Ready s)

theorem writeSlot_keeps_results (r : Slot) (v : Word) (s : State) :
    SameResults s (writeSlot r v s) ∧ (writeSlot r v s).faultAddr = s.faultAddr ∧
      ((writeSlot r v s).status.err = true → s.status.err = true) := by
  cases r
  case status => exact ⟨⟨rfl, rfl, rfl, rfl⟩, rfl, fun he => (Bool.and_eq_true_iff.1 he).1⟩
  all_goals exact ⟨⟨rfl, rfl, rfl, rfl⟩, rfl, id⟩

theorem stepEffect_of_engineStep {s t : State} {turns : List Agent} (hn : nextTurn s = (.engine, turns))
    (h : engineStep (s.setTurns turns) = .next t) : StepEffect s t := by
  have hno : ∀ c turns rest, nextTurn s = (.host, turns) → s.host = .wr 2 c :: rest → ¬ Ready s := by simp [hn]
  obtain ⟨-, rfl⟩ | ⟨-, hb, j, hj, hc, -, rfl⟩ := engineStep_cases h
  · exact .other ⟨rfl, rfl, rfl, rfl⟩ rfl id hno
  rcases engineMove_cases hc with ⟨a, hm⟩ | ⟨-, b, d, hm⟩ | ⟨-, b, d, hm⟩ | ⟨hp, hm⟩ <;> rw [hm]
  · exact .busError turns _ hn hb rfl
  · exact .other ⟨rfl, rfl, rfl, rfl⟩ rfl id hno
  · exact .other ⟨rfl, rfl, rfl, rfl⟩ rfl id hno
  · exact .completed turns j hn hb hj hp rfl

theorem stepEffect_of_portWrite {s t : State} {turns : List Agent} {rest : List HostOp} {i : BitVec 5} {v : Word}
    (hn : nextTurn s = (.host, turns)) (hh : s.host = .wr i v :: rest)
    (h : portWrite i v ((s.setTurns turns).setHost rest) = .next t) : StepEffect s t := by
  have hno (hi : i = 2 → ¬ Ready s) : ∀ c turns rest, nextTurn s = (.host, turns) → s.host = .wr 2 c :: rest → ¬ Ready s := by
    intro c turns' rest' _ hh'
    rw [hh] at hh'
    cases hh'
    exact hi rfl
  rcases portWrite_cases i v ((s.setTurns turns).setHost rest) with
    ⟨hi, op, -, hw⟩ | ⟨hi, -, hw⟩ | ⟨hi, -, hw⟩ | ⟨hi, -, hw⟩ <;> obtain rfl := Host.Outcome.next.inj (hw.symm.trans h)
  · obtain rfl := eq_cmdIndex_of_slotOf i hi
    rcases issue_cases op ((s.setTurns turns).setHost rest) with ⟨hr, he⟩ | ⟨-, hb, he⟩ | ⟨hr, r, -, he⟩ | ⟨hr, -, he⟩ <;>
      rw [he]
    · exact .other ⟨rfl, rfl, rfl, rfl⟩ rfl id (hno fun _ hready => by simp [hready.2] at hr)
    · exact .other ⟨rfl, rfl, rfl, rfl⟩ rfl id (hno fun _ hready => by simp [hready.1] at hb)
    · exact .rejected v turns rest _ _ hn hh hr (.inl rfl) rfl
    · exact .accepted v turns rest _ hn hh hr rfl
  · obtain rfl := eq_cmdIndex_of_slotOf i hi
    rcases issueIllegal_cases ((s.setTurns turns).setHost rest) with ⟨hr, he⟩ | ⟨-, hb, he⟩ | ⟨hr, he⟩ <;> rw [he]
    · exact .other ⟨rfl, rfl, rfl, rfl⟩ rfl id (hno fun _ hready => by simp [hready.2] at hr)
    · exact .other ⟨rfl, rfl, rfl, rfl⟩ rfl id (hno fun _ hready => by simp [hready.1] at hb)
    · exact .rejected v turns rest _ _ hn hh hr (.inr rfl) rfl
  · exact .other ⟨rfl, rfl, rfl, rfl⟩ rfl id (hno fun hi' => absurd (hi' ▸ rfl) hi)
  · obtain ⟨hres, hfault, herr⟩ := writeSlot_keeps_results (slotOf i) v ((s.setTurns turns).setHost rest)
    exact .other hres hfault herr (hno fun hi' => absurd (hi' ▸ rfl) hi)

/-- A transaction other than a register write or reset changes no result, nor FAULT_ADDR, nor STATUS. -/
theorem hostOp_keeps {s t : State} {o : HostOp} (h : hostOp o s = .next t) (hw : ∀ i v, o ≠ .wr i v)
    (hr : o ≠ .assertReset) : SameResults s t ∧ t.faultAddr = s.faultAddr ∧ t.status = s.status := by
  cases o
  case wr i v => exact absurd rfl (hw i v)
  case assertReset => exact absurd rfl hr
  all_goals obtain rfl := Host.Outcome.next.inj h
  case poll i mask val =>
    rcases pollOnce_cases i mask val s with hp | hp <;> rw [hp] <;> exact ⟨⟨rfl, rfl, rfl, rfl⟩, rfl, rfl⟩
  all_goals exact ⟨⟨rfl, rfl, rfl, rfl⟩, rfl, rfl⟩

theorem stepEffect_of_hostOp {s t : State} {turns : List Agent} {rest : List HostOp} {o : HostOp}
    (hn : nextTurn s = (.host, turns)) (hh : s.host = o :: rest)
    (h : hostOp o ((s.setTurns turns).setHost rest) = .next t) : StepEffect s t := by
  by_cases hr : o = .assertReset
  · subst hr
    exact .reset turns rest hn hh (Host.Outcome.next.inj h).symm
  by_cases hw : ∃ i v, o = .wr i v
  · obtain ⟨i, v, rfl⟩ := hw
    exact stepEffect_of_portWrite hn hh h
  · have hw' : ∀ i v, o ≠ .wr i v := fun i v e => hw ⟨i, v, e⟩
    obtain ⟨hres, hfault, hst⟩ := hostOp_keeps h hw' hr
    refine .other hres hfault (fun he => ?_) fun c _ _ _ hh' => ?_
    · rw [hst] at he
      exact he
    · rw [hh] at hh'
      exact absurd (List.cons.inj hh').1 (hw' 2 c)

theorem stepEffect_of_step {s t : State} (h : step s = .next t) : StepEffect s t := by
  rcases step_cases h with ⟨turns, hn, ⟨hh, rfl⟩ | ⟨o, rest, hh, ho⟩⟩ | ⟨turns, hn, he⟩
  · exact .other ⟨rfl, rfl, rfl, rfl⟩ rfl id (by simp [hh])
  · exact stepEffect_of_hostOp hn hh ho
  · exact stepEffect_of_engineStep hn he

theorem verifier_of_window_change {j : Job} {s : State} (h : (complete j s).ph ≠ s.ph ∨ (complete j s).phLen ≠ s.phLen) :
    j.op = .verifyV4 ∨ j.op = .verifyV6 := by
  rw [complete_ph, complete_phLen] at h
  cases hop : j.op
  case verifyV4 => exact .inl rfl
  case verifyV6 => exact .inr rfl
  all_goals simp [hop, phAfter, phLenAfter] at h

/-- Settles O57: of the effects a step can have, only completion and reset touch a result. -/
theorem resultsAreWrittenByCompletion : Obligations.ResultsAreWrittenByCompletion := by
  intro s t h hne
  cases stepEffect_of_step h with
  | reset turns rest turn op next => exact .inr ⟨rest, turns, turn, op⟩
  | rejected c turns rest code addr turn op ready cause next => exact absurd (next ▸ ⟨rfl, rfl, rfl, rfl⟩) hne
  | accepted c turns rest j turn op ready next => exact absurd (next ▸ ⟨rfl, rfl, rfl, rfl⟩) hne
  | busError turns a turn busy next => exact absurd (next ▸ ⟨rfl, rfl, rfl, rfl⟩) hne
  | completed turns j turn busy job phase next =>
    subst next
    exact .inl ⟨j, turns, turn, busy, job, phase, rfl, rfl, verifier_of_window_change (s := s.setTurns turns)⟩
  | other results fault err notTaken => exact absurd results hne

/-- Settles O56: of the effects a step can have, only RANGE, BUS and reset touch FAULT_ADDR. -/
theorem faultAddrIsWrittenByRangeAndBus : Obligations.FaultAddrIsWrittenByRangeAndBus := by
  intro s t h hne
  cases stepEffect_of_step h with
  | reset turns rest turn op next => exact .inr (.inr ⟨rest, turns, turn, op, next ▸ rfl⟩)
  | rejected c turns rest code addr turn op ready cause next =>
    subst next
    rcases cause with rfl | rfl
    · refine .inl ⟨c, rest, turns, turn, op, ready, ?_⟩
      simp [Status.endError, Status.takeCommand]
    · exact absurd rfl hne
  | accepted c turns rest j turn op ready next => exact absurd (next ▸ rfl) hne
  | busError turns a turn busy next => exact .inr (.inl ⟨turns, turn, busy, next ▸ ⟨rfl, rfl, rfl, rfl⟩⟩)
  | completed turns j turn busy job phase next => exact absurd (next ▸ rfl) hne
  | other results fault err notTaken => exact absurd fault hne

/-- Settles O55: ERR rises only where a command ends in an error, which touches no result, operand or memory byte. -/
theorem errorChangesNoResult : Obligations.ErrorChangesNoResult := by
  intro s t h hcause herr
  cases stepEffect_of_step h with
  | reset turns rest turn op next => subst next; cases herr
  | rejected c turns rest code addr turn op ready cause next =>
    subst next
    exact ⟨⟨rfl, rfl, rfl, rfl⟩, ⟨rfl, rfl, rfl, rfl, rfl, rfl⟩, rfl, rfl, fun _ => rfl⟩
  | accepted c turns rest j turn op ready next => subst next; cases herr
  | busError turns a turn busy next =>
    subst next
    exact ⟨⟨rfl, rfl, rfl, rfl⟩, ⟨rfl, rfl, rfl, rfl, rfl, rfl⟩, rfl, rfl, fun _ => rfl⟩
  | completed turns j turn busy job phase next =>
    subst next
    rcases hcause with he | ⟨-, _, _, _, hn, -⟩
    · rw [complete_status, Status.complete_err, State.setTurns_status, he] at herr; cases herr
    · rw [turn] at hn; cases hn
  | other results fault err notTaken =>
    rcases hcause with he | ⟨hready, c, rest, turns, hn, hh⟩
    · rw [err herr] at he; cases he
    · exact absurd hready (notTaken c turns rest hn hh)

/-! ### The engine's part of the state -/

/-- What the engine's steps read and write of a state, and what they lead to: its hidden registers, the result registers,
FAULT_ADDR, STATUS without OVR, the reset input and the count of free bytes. The other fields, which the host and the platform
write at any time, are set to fixed values. -/
def State.engineState (s : State) : State :=
  { s with
    irqEn := false, status := { s.status with ovr := false }
    aAddr := 0, aLen := 0, bAddr := 0, bLen := 0, accIn := 0
    mem := [], hidden := [], disturbed := [], host := [], turns := [], lastRead := none }

section
variable {s t : State} (e : t.engineState = s.engineState)
include e

theorem job_eq_of_engineState : t.job = s.job := (congrArg State.job e :)

theorem phase_eq_of_engineState : t.phase = s.phase := (congrArg State.phase e :)

theorem inReset_eq_of_engineState : t.inReset = s.inReset := (congrArg State.inReset e :)

theorem busy_eq_of_engineState : t.status.busy = s.status.busy := (congrArg (fun x => x.status.busy) e :)

/-- STATUS is the same up to OVR. -/
theorem status_eq_of_engineState : t.status = { s.status with ovr := t.status.ovr } := by
  have h : ({ t.status with ovr := false } : Status) = { s.status with ovr := false } := (congrArg State.status e :)
  exact congrArg (fun x : Status => { x with ovr := t.status.ovr }) h

theorem sameResults_of_engineState : SameResults s t :=
  ⟨(congrArg State.sum16 e :), (congrArg State.cksum e :), (congrArg State.ph e :), (congrArg State.phLen e :)⟩

theorem faultAddr_eq_of_engineState : t.faultAddr = s.faultAddr := (congrArg State.faultAddr e :)

end

/-- The hidden registers of R26 but `h.job`: how far a command has come. -/
def State.progress (s : State) : State :=
  { State.reset with
    phase := s.phase, acc := s.acc, pend := s.pend, pos := s.pos, hpos := s.hpos, hb := s.hb, hph := s.hph }

theorem progress_engineState (s : State) : s.engineState.progress = s.progress := rfl

theorem runInv_progress {j : Job} {s : State} : RunInv j s.progress ↔ RunInv j s where
  mp h := ⟨h.legal, h.coherent, h.posBound, h.hposBound, h.accBound, h.pendParity, h.header, h.assembled, h.finished⟩
  mpr h := ⟨h.legal, h.coherent, h.posBound, h.hposBound, h.accBound, h.pendParity, h.header, h.assembled, h.finished⟩

/-- The invariant of a running command speaks of the hidden registers only. -/
theorem RunInv.congr {j : Job} {s t : State} (h : RunInv j s) (e : t.progress = s.progress) : RunInv j t :=
  runInv_progress.1 (e ▸ runInv_progress.2 h)

theorem phaseCoherent_engineState (j : Job) (s : State) : phaseCoherent j s.engineState = phaseCoherent j s := rfl

/-! ### The invariant under the operations of the host -/

/-- A change outside the engine's part, OVR included, keeps the invariant if memory stays canonical, an idle block has no free
byte, and a block in reset stays at its reset values. -/
theorem State.Inv.congr {s t : State} (h : s.Inv) (e : t.engineState = s.engineState) (hmem : t.mem.wf)
    (hdist : s.status.busy = false → t.disturbed = []) (hreset : t.inReset = true → t = assertReset t) : t.Inv := by
  have hst := status_eq_of_engineState e
  have hjob := job_eq_of_engineState e
  obtain ⟨hsum, hck, hph, hlen⟩ := sameResults_of_engineState e
  constructor
  case memory => exact hmem
  case busyIff => rw [hst, hjob]; exact h.busyIff
  case idleIff => rw [hjob, phase_eq_of_engineState e]; exact h.idleIff
  case busyClear => rw [hst]; exact h.busyClear
  case errIff => rw [hst]; exact h.errIff
  case errVerdict => rw [hst]; exact h.errVerdict
  case checksum => rw [hsum, hck]; exact h.checksum
  case verdict => rw [hst, hck]; exact h.verdict
  case window => rw [hph, hlen]; exact h.window
  case running => rw [hjob]; exact fun j hj => (h.running j hj).congr (congrArg State.progress e :)
  case settled => rw [hst]; exact hdist
  case underReset => exact hreset

/-- The same for an operation that does in reset what it does to the reset values. -/
theorem State.Inv.map {s : State} {f : State → State} (h : s.Inv) (hf : (f s).engineState = s.engineState)
    (hr : f (assertReset s) = assertReset (f s)) (hmem : (f s).mem.wf)
    (hdist : s.status.busy = false → (f s).disturbed = []) : (f s).Inv :=
  h.congr hf hmem hdist fun hi =>
    (congrArg f (h.underReset (inReset_eq_of_engineState hf ▸ hi))).trans hr

theorem inv_setTurns {s : State} (h : s.Inv) (l : List Agent) : (s.setTurns l).Inv :=
  h.map (f := State.setTurns l) rfl rfl h.memory h.settled

theorem inv_setHost {s : State} (h : s.Inv) (l : List HostOp) : (s.setHost l).Inv :=
  h.map (f := State.setHost l) rfl rfl h.memory h.settled

theorem inv_setLastRead {s : State} (h : s.Inv) (v : Word) : (s.setLastRead v).Inv :=
  h.map (f := State.setLastRead v) rfl rfl h.memory h.settled

theorem inv_publishStores {s : State} (h : s.Inv) : (publishStores s).Inv :=
  h.map (f := publishStores) rfl rfl h.memory h.settled

theorem inv_denyByte {s : State} (h : s.Inv) (a : Word) : (denyByte a s).Inv :=
  h.map (f := denyByte a) rfl rfl (denyByte_wf a h.memory) h.settled

theorem underRunningCommand_idle {s : State} (h : s.status.busy = false) (a : Nat) : underRunningCommand s a = false := by
  unfold underRunningCommand
  split
  · rfl
  · simp [h]

/-- A store frees a byte only under a running command, so an idle block stays settled (R43). -/
theorem inv_storeByte {s : State} (h : s.Inv) (a : Word) (b : Byte) (v : Bool) : (storeByte a b v s).Inv := by
  refine h.map (f := storeByte a b v) rfl ?_ (storeByte_wf a b v h.memory) fun hb => ?_
  · show storeByte a b v (assertReset s) = assertReset (storeByte a b v s)
    simp only [storeByte, underRunningCommand_idle (show (assertReset s).status.busy = false from rfl)]
    simp only [Bool.and_false, Bool.false_eq_true, if_false]
    rfl
  · simp [underRunningCommand_idle hb, h.settled hb]

theorem inv_assertReset {s : State} (h : s.mem.wf) : (assertReset s).Inv where
  memory := h
  busyIff := rfl
  idleIff := by simp
  busyClear := nofun
  errIff := by simp
  errVerdict := nofun
  checksum := .inr ⟨rfl, rfl⟩
  verdict := nofun
  window := .inl ⟨rfl, rfl⟩
  running := nofun
  settled := fun _ => rfl
  underReset := fun _ => rfl

theorem inv_releaseReset {s : State} (h : s.Inv) : (releaseReset s).Inv :=
  { h with
    running := fun j hj => (h.running j hj).congr rfl
    underReset := nofun }

/-- Settles O58: the state after reset is the asserted reset, released. -/
theorem resetKeepsTheInvariant : Obligations.ResetKeepsTheInvariant :=
  inv_releaseReset (inv_assertReset (s := State.reset) reset_memory_wf)

theorem inv_dropCommand {s : State} (h : s.Inv) (hr : s.inReset = false) : (s.setStatus s.status.dropCommand).Inv :=
  h.congr rfl h.memory h.settled (by simp [hr])

theorem inv_acknowledge {s : State} (h : s.Inv) (hr : s.inReset = false) (v : Word) : (acknowledge v s).Inv :=
  { h with
    busyClear := fun hb => by
      obtain ⟨hd, he, hv⟩ := h.busyClear hb
      simp [hd, he, hv]
    errIff := by
      rw [acknowledge_status, Status.clearBits_errCode, Status.clearBits_err]
      cases v.getLsbD 2
      · simpa using h.errIff
      · simp
    errVerdict := fun he => h.errVerdict (Bool.and_eq_true_iff.1 he).1
    running := fun j hj => (h.running j hj).congr rfl
    underReset := by simp [hr] }

theorem inv_writeSlot {s : State} (h : s.Inv) (hr : s.inReset = false) (r : Slot) (v : Word) : (writeSlot r v s).Inv := by
  have keep {t : State} (e : t.engineState = s.engineState) (hm : t.mem = s.mem) (hd : t.disturbed = s.disturbed) : t.Inv :=
    h.congr e (hm ▸ h.memory) (hd ▸ h.settled) fun hi => by simp [inReset_eq_of_engineState e, hr] at hi
  cases r
  case status => exact inv_acknowledge h hr v
  all_goals exact keep rfl rfl rfl

/-- The end of a command in an error keeps the invariant when VERDICT has been 0 before it. -/
theorem inv_endError {s : State} {x : Status} {code : ErrCode} (h : s.Inv) (hr : s.inReset = false) (hx : x.verdict = false)
    (hc : code ≠ .none) (addr : Option Word) : (endError code addr (s.setStatus x)).Inv where
  memory := h.memory
  busyIff := rfl
  idleIff := by simp
  busyClear := nofun
  errIff := by simp [hc]
  errVerdict := fun _ => hx
  checksum := h.checksum
  verdict := by simp [hx]
  window := h.window
  running := nofun
  settled := fun _ => rfl
  underReset := by simp [hr]

/-! ### The invariant under acceptance (R65) -/

theorem assemble_of_no_header {op : Instr} (h : hdrOffsets op = []) (hb : Vector Byte 40) (len : Word) :
    assemble op hb len = zeros40 := by
  cases op
  case verifyV4 => simp [hdrOffsets, hdrOffsetsV4] at h
  case verifyV6 => simp [hdrOffsets, hdrOffsetsV6] at h
  all_goals rfl

theorem streamLen_pos_of_header {j : Job} (h : hdrOffsets j.op ≠ []) : 0 < streamLen j := by
  obtain ⟨op, aAddr, aLen, bAddr, bLen, accIn⟩ := j
  cases op
  case verifyV4 => simp [streamLen]
  case verifyV6 => simp [streamLen]
  all_goals simp [hdrOffsets] at h

/-- Where a command starts, and what is then left to read (R65). -/
theorem startPhase_cases (j : Job) :
    (startPhase j = .hdr ∧ hdrOffsets j.op ≠ []) ∨
      (startPhase j = .stream ∧ 0 < streamLen j ∧ hdrOffsets j.op = []) ∨
      (startPhase j = .finish ∧ streamLen j = 0 ∧ hdrOffsets j.op = []) := by
  obtain ⟨op, aAddr, aLen, bAddr, bLen, accIn⟩ := j
  cases op
  case verifyV4 => exact .inl ⟨rfl, by simp [hdrOffsets, hdrOffsetsV4]⟩
  case verifyV6 => exact .inl ⟨rfl, by simp [hdrOffsets, hdrOffsetsV6]⟩
  case fold => exact .inr (.inr ⟨rfl, rfl, rfl⟩)
  all_goals
    simp only [startPhase, hdrOffsets]
    split <;> simp <;> omega

theorem startPhase_ne_idle (j : Job) : startPhase j ≠ .idle := by
  rcases startPhase_cases j with ⟨h, -⟩ | ⟨h, -⟩ | ⟨h, -⟩ <;> simp [h]

theorem startAcc_of_ne_fold {j : Job} (h : j.op ≠ .fold) : startAcc j = 0 := by
  obtain ⟨op, aAddr, aLen, bAddr, bLen, accIn⟩ := j
  cases op
  case fold => exact absurd rfl h
  all_goals rfl

theorem startJob_runInv {j : Job} (hl : firstIllegal (regionsOf j) = none) (s : State) : RunInv j (startJob j s) where
  legal := hl
  coherent := by
    rw [phaseCoherent_iff]
    rcases startPhase_cases j with ⟨hp, hh⟩ | ⟨hp, hs, -⟩ | ⟨hp, -⟩
    · exact .inl ⟨hp, List.length_pos_iff.2 hh⟩
    · exact .inr (.inl ⟨hp, hs⟩)
    · exact .inr (.inr hp)
  posBound := Nat.zero_le _
  hposBound := Nat.zero_le _
  accBound := fun hop => by simp [startAcc_of_ne_fold hop]
  pendParity := rfl
  header := fun _ => rfl
  assembled := fun hp => by
    rcases startPhase_cases j with ⟨h, -⟩ | ⟨-, -, hh⟩ | ⟨-, -, hh⟩
    · exact absurd h hp
    · simp [hh, assemble_of_no_header]
    · simp [hh, assemble_of_no_header]
  finished := fun hp => by
    rcases startPhase_cases j with ⟨h, -⟩ | ⟨h, -⟩ | ⟨-, hs, -⟩
    · rw [startJob_phase, h] at hp; cases hp
    · rw [startJob_phase, h] at hp; cases hp
    · exact hs.symm

theorem inv_startJob {s : State} {j : Job} (h : s.Inv) (hr : s.inReset = false) (hl : firstIllegal (regionsOf j) = none) :
    (startJob j (s.setStatus s.status.takeCommand)).Inv where
  memory := h.memory
  busyIff := rfl
  idleIff := by simp [startPhase_ne_idle]
  busyClear := fun _ => ⟨rfl, rfl, rfl⟩
  errIff := by simp
  errVerdict := nofun
  checksum := h.checksum
  verdict := nofun
  window := h.window
  running := fun k hk => by
    obtain rfl : j = k := by simpa using hk
    exact startJob_runInv hl _
  settled := nofun
  underReset := by simp [hr]

theorem inv_issue {s : State} (h : s.Inv) (op : Instr) : (issue op s).Inv := by
  rcases issue_cases op s with ⟨-, hi⟩ | ⟨hr, -, hi⟩ | ⟨⟨-, hr⟩, r, -, hi⟩ | ⟨⟨-, hr⟩, hl, hi⟩ <;> rw [hi]
  · exact h
  · exact inv_dropCommand h hr
  · exact inv_endError (x := s.status.takeCommand) (code := .range) h hr rfl nofun _
  · exact inv_startJob h hr hl

theorem inv_issueIllegal {s : State} (h : s.Inv) : (issueIllegal s).Inv := by
  rcases issueIllegal_cases s with ⟨-, hi⟩ | ⟨hr, -, hi⟩ | ⟨⟨-, hr⟩, hi⟩ <;> rw [hi]
  · exact h
  · exact inv_dropCommand h hr
  · exact inv_endError (x := s.status.takeCommand) (code := .illegalCmd) h hr rfl nofun _

theorem inv_portWrite {s t : State} {i : BitVec 5} {v : Word} (h : s.Inv) (hw : portWrite i v s = .next t) : t.Inv := by
  rcases portWrite_cases i v s with ⟨-, op, -, hi⟩ | ⟨-, -, hi⟩ | ⟨-, -, hi⟩ | ⟨-, hr, hi⟩ <;>
    obtain rfl := Host.Outcome.next.inj (hi.symm.trans hw)
  · exact inv_issue h op
  · exact inv_issueIllegal h
  · exact h
  · exact inv_writeSlot h hr _ v

theorem inv_pollOnce {s : State} (h : s.Inv) (i : BitVec 5) (mask val : Word) : (pollOnce i mask val s).Inv := by
  rcases pollOnce_cases i mask val s with hp | hp <;> rw [hp]
  · exact inv_setLastRead h _
  · exact inv_setHost (inv_setLastRead h _) _

theorem inv_hostOp {s t : State} {o : HostOp} (h : s.Inv) (ho : hostOp o s = .next t) : t.Inv := by
  cases o
  case wr i v => exact inv_portWrite h ho
  all_goals obtain rfl := Host.Outcome.next.inj ho
  case rd i => exact inv_setLastRead h _
  case poll i mask val => exact inv_pollOnce h i mask val
  case assertReset => exact inv_assertReset h.memory
  case releaseReset => exact inv_releaseReset h
  case store a b v => exact inv_storeByte h a b v
  case publish => exact inv_publishStores h
  case deny a => exact inv_denyByte h a

theorem inv_hostStep {s t : State} (h : s.Inv) (hs : hostStep s = .next t) : t.Inv := by
  rcases hostStep_cases hs with ⟨-, rfl⟩ | ⟨o, rest, -, ho⟩
  · exact h
  · exact inv_hostOp (inv_setHost h rest) ho

/-! ### The invariant under the engine's steps (R66 to R68) -/

theorem RunInv.latchHeader {j : Job} {s : State} (h : RunInv j s) (hp : s.phase = .hdr)
    (hlt : s.hpos < (hdrOffsets j.op).length) (o : Nat) (b : Byte) : RunInv j (latchHeader j o b s) := by
  have hpos : s.pos = 0 := h.header hp
  have hlen : 0 < streamLen j := streamLen_pos_of_header (List.ne_nil_of_length_pos (by omega))
  by_cases hlast : s.hpos + 1 = (hdrOffsets j.op).length
  · exact {
      legal := h.legal
      coherent := phaseCoherent_iff.2 (.inr (.inl ⟨by simp [hlast], by simp [hpos, hlen]⟩))
      posBound := h.posBound
      hposBound := hlast.le
      accBound := h.accBound
      pendParity := h.pendParity
      header := fun _ => hpos
      assembled := fun _ => ⟨hlast, by simp [hlast]⟩
      finished := by simp [hlast] }
  · exact {
      legal := h.legal
      coherent := phaseCoherent_iff.2 (.inl ⟨by simp [hlast, hp], by rw [latchHeader_hpos]; omega⟩)
      posBound := h.posBound
      hposBound := by rw [latchHeader_hpos]; omega
      accBound := h.accBound
      pendParity := h.pendParity
      header := fun _ => hpos
      assembled := by simp [hlast, hp]
      finished := by simp [hlast, hp] }

theorem RunInv.takeStreamByte {j : Job} {s : State} (h : RunInv j s) (hp : s.phase = .stream)
    (hlt : s.pos < streamLen j) (b : Byte) : RunInv j (takeStreamByte j b s) where
  legal := h.legal
  coherent := by
    rw [phaseCoherent_iff]
    simp only [takeStreamByte_phase, takeStreamByte_pos, hp]
    split
    · exact .inr (.inr rfl)
    · exact .inr (.inl ⟨rfl, by omega⟩)
  posBound := hlt
  hposBound := h.hposBound
  accBound := fun hop => by
    rw [takeStreamByte_acc]
    split
    · exact h.accBound hop
    · exact accumulate_bit31 (h.accBound hop) _
  pendParity := by
    have hpar := h.pendParity
    rw [takeStreamByte_pend, takeStreamByte_pos]
    cases hpend : s.pend <;> simp [hpend] at hpar ⊢ <;> omega
  header := by
    simp only [takeStreamByte_phase, hp]
    split <;> nofun
  assembled := fun _ => h.assembled (by simp [hp])
  finished := by
    simp only [takeStreamByte_phase, hp]
    split
    · exact fun _ => ‹_›
    · nofun

/-- A step that leaves command `j` running keeps the invariant if it keeps that of the hidden state. -/
theorem State.Inv.keepRunning {s t : State} {j : Job} (h : s.Inv) (hj : s.job = some j) (hmem : t.mem = s.mem)
    (hst : t.status = s.status) (hjob : t.job = s.job) (hin : t.inReset = s.inReset) (hr : s.inReset = false)
    (hres : SameResults s t) (run : RunInv j t) : t.Inv := by
  obtain ⟨hsum, hck, hph, hlen⟩ := hres
  have hb : s.status.busy = true := h.busy_of_job hj
  constructor
  case memory => exact hmem ▸ h.memory
  case busyIff => rw [hst, hjob]; exact h.busyIff
  case idleIff =>
    rw [hjob, hj]
    refine ⟨nofun, fun hidle => ?_⟩
    have := run.coherent
    simp [phaseCoherent, hidle] at this
  case busyClear => rw [hst]; exact h.busyClear
  case errIff => rw [hst]; exact h.errIff
  case errVerdict => rw [hst]; exact h.errVerdict
  case checksum => rw [hsum, hck]; exact h.checksum
  case verdict => rw [hst, hck]; exact h.verdict
  case window => rw [hph, hlen]; exact h.window
  case running =>
    intro k hk
    obtain rfl : j = k := by rw [hjob, hj] at hk; exact Option.some.inj hk
    exact run
  case settled => rw [hst, hb]; nofun
  case underReset => rw [hin, hr]; nofun

theorem byteAt_assembleV4_of_ge (hb : Vector Byte 40) (len : Word) {k : Nat} (h : 12 ≤ k) :
    byteAt (assembleV4 hb len) k = 0 := by
  by_cases hk : k < 40
  · have h8 : ¬ k < 8 := by omega
    have h9 : k ≠ 9 := by omega
    have h10 : k ≠ 10 := by omega
    have h11 : k ≠ 11 := by omega
    simp [byteAt_eq_getElem _ hk, assembleV4, h8, h9, h10, h11]
  · exact byteAt_of_ge _ (by omega)

/-- The window after completion is the old one, or holds the pseudo-header just assembled. -/
theorem window_complete {s : State} {j : Job} (h : s.Inv) (hph : s.hph = assemble j.op s.hb j.bLen) :
    (complete j s).phLen = 0 ∧ (complete j s).ph = zeros40 ∨
      (complete j s).phLen = 12 ∧ (∀ k, 12 ≤ k → byteAt (complete j s).ph k = 0) ∨ (complete j s).phLen = 40 := by
  rw [complete_phLen, complete_ph, hph]
  cases hop : j.op
  case verifyV4 => exact .inr (.inl ⟨rfl, fun k hk => byteAt_assembleV4_of_ge _ _ hk⟩)
  case verifyV6 => exact .inr (.inr rfl)
  all_goals exact h.window

theorem inv_complete {s : State} {j : Job} (h : s.Inv) (hr : s.inReset = false) (hj : s.job = some j)
    (hp : s.phase = .finish) : (complete j s).Inv where
  memory := h.memory
  busyIff := rfl
  idleIff := by simp
  busyClear := nofun
  errIff := h.errIff
  errVerdict := fun he => by
    have hb : s.status.busy = true := h.busy_of_job hj
    obtain ⟨-, hne, -⟩ := h.busyClear hb
    simp [hne] at he
  checksum := .inl (complement16_eq_not _)
  verdict := fun hv => by simpa [verdictOf] using hv
  window := window_complete h ((h.running j hj).assembled (by simp [hp])).2
  running := nofun
  settled := fun _ => rfl
  underReset := by simp [hr]

theorem inv_engineStep {s t : State} (h : s.Inv) (he : engineStep s = .next t) : t.Inv := by
  obtain ⟨-, rfl⟩ | ⟨hr, hb, j, hj, hc, -, rfl⟩ := engineStep_cases he
  · exact h
  have run := h.running j hj
  rcases engineMove_cases hc with ⟨a, hm⟩ | ⟨hp, b, d, hm⟩ | ⟨hp, b, d, hm⟩ | ⟨hp, hm⟩ <;> rw [hm]
  · obtain ⟨-, -, hv⟩ := h.busyClear hb
    exact inv_endError (x := s.status) (code := .bus) h hr hv nofun _
  · have hlt : s.hpos < (hdrOffsets j.op).length := by simpa [phaseCoherent, hp] using hc
    exact h.keepRunning hj rfl rfl rfl rfl hr ⟨rfl, rfl, rfl, rfl⟩ ((run.congr (t := s.setDraws d) rfl).latchHeader hp hlt _ b)
  · have hlt : s.pos < streamLen j := by simpa [phaseCoherent, hp] using hc
    exact h.keepRunning hj rfl rfl rfl rfl hr ⟨rfl, rfl, rfl, rfl⟩ ((run.congr (t := s.setDraws d) rfl).takeStreamByte hp hlt b)
  · exact inv_complete h hr hj hp

/-- Settles O59: a step is an operation of the host or of the engine, and each of them keeps the invariant. -/
theorem everyStepKeepsTheInvariant : Obligations.EveryStepKeepsTheInvariant := by
  intro s t h hs
  rcases step_cases hs with ⟨turns, -, ⟨-, rfl⟩ | ⟨o, rest, -, ho⟩⟩ | ⟨turns, -, he⟩
  · exact inv_setTurns h turns
  · exact inv_hostOp (inv_setHost (inv_setTurns h turns) rest) ho
  · exact inv_engineStep (inv_setTurns h turns) he

/-- Settles O54: every effect on a result or FAULT_ADDR leaves BUSY at 0, and DONE and VERDICT are 0 by the invariant. -/
theorem resultsHoldWhileBusy : Obligations.ResultsHoldWhileBusy := by
  intro s t h hb hs hbt
  obtain ⟨hdone, -, hverdict⟩ := (everyStepKeepsTheInvariant s t h hs).busyClear hbt
  cases stepEffect_of_step hs with
  | reset turns rest turn op next => subst next; cases hbt
  | rejected c turns rest code addr turn op ready cause next => subst next; cases hbt
  | accepted c turns rest j turn op ready next => exact absurd hb (by simp [ready.1])
  | busError turns a turn busy next => subst next; cases hbt
  | completed turns j turn busy job phase next => subst next; cases hbt
  | other results fault err notTaken => exact ⟨results, fault, hverdict, hdone⟩

/-! ### What a command reads lies in its regions (R40, R41) -/

theorem jobCovers_iff {j : Job} {a : Nat} :
    jobCovers j a = true ↔ ∃ r ∈ regionsOf j, r.base.toNat ≤ a ∧ a < r.base.toNat + r.len := by
  simp [jobCovers, regionCovers]

/-- Every header offset lies in the header's region. -/
theorem hdrOffsets_lt {op : Instr} {k : Nat} (hk : k < (hdrOffsets op).length) :
    (hdrOffsets op).getD k 0 < (if op = .verifyV6 then ip6HdrFixedLen else ipHdrFixedLen) := by
  revert k
  cases op <;> decide

/-- A header step reads inside the command's regions only (R41). -/
theorem jobCovers_header {j : Job} {k : Nat} (hk : k < (hdrOffsets j.op).length) :
    jobCovers j (j.aAddr.toNat + (hdrOffsets j.op).getD k 0) = true := by
  have hlt := hdrOffsets_lt hk
  obtain ⟨op, aAddr, aLen, bAddr, bLen, accIn⟩ := j
  rw [jobCovers_iff]
  cases op
  case verifyV4 => exact ⟨_, List.mem_cons_self, Nat.le_add_right _ _, Nat.add_lt_add_left hlt _⟩
  case verifyV6 => exact ⟨_, List.mem_cons_self, Nat.le_add_right _ _, Nat.add_lt_add_left hlt _⟩
  all_goals exact absurd hk (Nat.not_lt_zero k)

theorem twoRegions_covered {a b : Word} {n m i x : Nat} (hi : i < n + m) (hx : twoRegions a n b i = .memory x) :
    ∃ r ∈ [Region.mk a n, Region.mk b m], r.base.toNat ≤ x ∧ x < r.base.toNat + r.len := by
  unfold twoRegions at hx
  split at hx <;> cases hx
  · exact ⟨⟨a, n⟩, by simp, by simp, by simpa⟩
  · exact ⟨⟨b, m⟩, by simp, by simp, by simp; omega⟩

theorem afterPseudoHeader_covered {b : Word} {n m i x : Nat} (hi : i < n + m) (hx : afterPseudoHeader n b i = .memory x) :
    b.toNat ≤ x ∧ x < b.toNat + m := by
  unfold afterPseudoHeader at hx
  split at hx <;> cases hx
  omega

/-- A stream step reads inside the command's regions only (R41). -/
theorem jobCovers_stream {j : Job} {i a : Nat} (hi : i < streamLen j) (ha : streamSource j i = .memory a) :
    jobCovers j a = true := by
  obtain ⟨op, aAddr, aLen, bAddr, bLen, accIn⟩ := j
  rw [jobCovers_iff]
  cases op
  case sum =>
    obtain rfl := StreamSource.memory.inj ha
    exact ⟨_, List.mem_cons_self, Nat.le_add_right _ _, Nat.add_lt_add_left hi _⟩
  case sum2 => exact twoRegions_covered hi ha
  case fold => exact absurd hi (Nat.not_lt_zero i)
  case verifyIp => exact twoRegions_covered hi ha
  case verifyV4 => exact ⟨⟨bAddr, bLen.toNat⟩, by simp [regionsOf], afterPseudoHeader_covered hi ha⟩
  case verifyV6 => exact ⟨⟨bAddr, bLen.toNat⟩, by simp [regionsOf], afterPseudoHeader_covered hi ha⟩

/-! ### Two states alike for a running command -/

/-- Any command `j` that runs in both states runs alike: its hidden state is the same, and so are the platform's answer and
the freedom of the byte at every address of its regions. -/
structure Alike (j : Job) (s t : State) : Prop where
  engine : t.engineState = s.engineState
  answer : ∀ a, jobCovers j a = true → t.mem.answer a = s.mem.answer a
  free : ∀ a, jobCovers j a = true → (a ∈ t.disturbed ↔ a ∈ s.disturbed)

theorem Alike.of_eq {j : Job} {s t : State} (he : t.engineState = s.engineState) (hm : t.mem = s.mem)
    (hd : t.disturbed = s.disturbed) : Alike j s t :=
  ⟨he, fun _ _ => by rw [hm], fun _ _ => by rw [hd]⟩

theorem Alike.trans {j : Job} {s t u : State} (h : Alike j s t) (k : Alike j t u) : Alike j s u :=
  ⟨k.engine.trans h.engine, fun a ha => (k.answer a ha).trans (h.answer a ha),
   fun a ha => (k.free a ha).trans (h.free a ha)⟩

theorem Alike.setTurns_right {j : Job} {s t : State} (h : Alike j s t) (l : List Agent) : Alike j s (t.setTurns l) :=
  h.trans (.of_eq rfl rfl rfl)

/-- An operation that changes the engine's part in a way that depends on that part alone, leaves memory as it is, and leaves
the free bytes as they are or settles them all keeps two states alike. -/
theorem Alike.map {j : Job} {s t : State} {f : State → State} (h : Alike j s t)
    (hf : ∀ x, (f x).engineState = (f x.engineState).engineState) (hmem : ∀ x, (f x).mem = x.mem)
    (hdist : (∀ x, (f x).disturbed = x.disturbed) ∨ ∀ x, (f x).disturbed = []) : Alike j (f s) (f t) where
  engine := by rw [hf, h.engine, ← hf]
  answer := fun a ha => by rw [hmem, hmem, h.answer a ha]
  free := fun a ha => by
    rcases hdist with hd | hd
    · rw [hd, hd, h.free a ha]
    · rw [hd, hd]

section
variable {j : Job} {s t : State} (h : Alike j s t)
include h

theorem Alike.setDraws (n : Nat) : Alike j (s.setDraws n) (t.setDraws n) :=
  h.map (f := State.setDraws n) (fun _ => rfl) (fun _ => rfl) (.inl fun _ => rfl)

theorem Alike.endError (c : ErrCode) (a : Word) : Alike j (endError c (some a) s) (endError c (some a) t) :=
  h.map (f := Machine.endError c (some a)) (fun _ => rfl) (fun _ => rfl) (.inr fun _ => rfl)

theorem Alike.latchHeader (k : Job) (o : Nat) (b : Byte) : Alike j (latchHeader k o b s) (latchHeader k o b t) :=
  h.map (f := Machine.latchHeader k o b) (fun _ => rfl) (fun _ => rfl) (.inl fun _ => rfl)

theorem Alike.takeStreamByte (k : Job) (b : Byte) : Alike j (takeStreamByte k b s) (takeStreamByte k b t) :=
  h.map (f := Machine.takeStreamByte k b) (fun _ => rfl) (fun _ => rfl) (.inl fun _ => rfl)

theorem Alike.complete (k : Job) : Alike j (complete k s) (complete k t) :=
  h.map (f := Machine.complete k) (fun _ => rfl) (fun _ => rfl) (.inr fun _ => rfl)

/-- A read inside the command's regions gives both the same answer. -/
theorem Alike.memRead {a : Nat} (ha : jobCovers j a = true) :
    (memRead s a = (.busError, s) ∧ memRead t a = (.busError, t)) ∨
      ∃ b n, memRead s a = (.ok b, s.setDraws n) ∧ memRead t a = (.ok b, t.setDraws n) := by
  have hdraws : t.draws = s.draws := (congrArg State.draws h.engine :)
  unfold Machine.memRead
  rw [h.answer a ha, hdraws]
  cases s.mem.answer a with
  | busError => exact .inl ⟨rfl, rfl⟩
  | ok b =>
    by_cases hd : a ∈ s.disturbed
    · exact .inr ⟨Config.freeByte s.draws, s.draws + 1, by simp [hd], by simp [hd, h.free a ha]⟩
    · refine .inr ⟨b, s.draws, by simp [hd]; rfl, ?_⟩
      simp only [h.free a ha, hd, if_false, ← hdraws]
      rfl

end

theorem Alike.engineMove {j : Job} {s t : State} (h : Alike j s t) (hc : phaseCoherent j s = true) :
    Alike j (engineMove j s) (engineMove j t) := by
  have hphase : t.phase = s.phase := phase_eq_of_engineState h.engine
  have hpos : t.pos = s.pos := (congrArg State.pos h.engine :)
  have hhpos : t.hpos = s.hpos := (congrArg State.hpos h.engine :)
  have hhph : t.hph = s.hph := (congrArg State.hph h.engine :)
  cases hp : s.phase with
  | idle => simp [phaseCoherent, hp] at hc
  | hdr =>
    have hlt : s.hpos < (hdrOffsets j.op).length := by simpa [phaseCoherent, hp] using hc
    rw [engineMove_hdr hp, engineMove_hdr (hphase.trans hp), headerStep, headerStep, hhpos]
    rcases h.memRead (jobCovers_header hlt) with ⟨hs, ht⟩ | ⟨b, n, hs, ht⟩ <;> simp only [hs, ht]
    · exact h.endError _ _
    · exact (h.setDraws n).latchHeader _ _ _
  | stream =>
    have hlt : s.pos < streamLen j := by simpa [phaseCoherent, hp] using hc
    rw [engineMove_stream hp, engineMove_stream (hphase.trans hp), streamStep, streamStep, hpos, hhph]
    cases hsrc : streamSource j s.pos with
    | pseudoHeader k => exact h.takeStreamByte _ _
    | memory a =>
      rcases h.memRead (jobCovers_stream hlt hsrc) with ⟨hs, ht⟩ | ⟨b, n, hs, ht⟩ <;> simp only [hs, ht]
      · exact h.endError _ _
      · exact (h.setDraws n).takeStreamByte _ _
  | finish =>
    rw [engineMove_finish hp, engineMove_finish (hphase.trans hp)]
    exact h.complete j

theorem Alike.engineStep {j : Job} {s t s' : State} (h : Alike j s t) (hj : s.status.busy = true → s.job = some j)
    (hs : engineStep s = .next s') : ∃ t', engineStep t = .next t' ∧ Alike j s' t' := by
  have hin : t.inReset = s.inReset := inReset_eq_of_engineState h.engine
  have hbusy : t.status.busy = s.status.busy := busy_eq_of_engineState h.engine
  rcases engineStep_cases hs with ⟨hidle, rfl⟩ | ⟨hr, hb, k, hk, hc, hl, rfl⟩
  · refine ⟨t, ?_, h⟩
    rcases hidle with hr | hb
    · simp [Machine.engineStep, hin, hr]
    · simp [Machine.engineStep, hbusy, hb]
  · obtain rfl : j = k := Option.some.inj ((hj hb).symm.trans hk)
    refine ⟨_, engineStep_running (hin.trans hr) (hbusy.trans hb) ((job_eq_of_engineState h.engine).trans hk) ?_ hl,
      h.engineMove hc⟩
    rw [← phaseCoherent_engineState, h.engine, phaseCoherent_engineState, hc]

/-! ### The host beside a running command (R109) -/

theorem alike_writeSlot {j : Job} {s : State} (h : s.Inv) (hb : s.status.busy = true) (r : Slot) (v : Word) :
    Alike j s (writeSlot r v s) := by
  cases r
  case status =>
    refine .of_eq ?_ rfl rfl
    simp only [State.engineState, writeSlot, acknowledge, clearBits_running h hb]
    rfl
  all_goals exact .of_eq rfl rfl rfl

theorem alike_issue {j : Job} {s : State} (hb : s.status.busy = true) (op : Instr) : Alike j s (issue op s) := by
  rcases issue_cases op s with ⟨-, hi⟩ | ⟨-, -, hi⟩ | ⟨⟨hn, -⟩, -⟩ | ⟨⟨hn, -⟩, -⟩
  · rw [hi]; exact .of_eq rfl rfl rfl
  · rw [hi]; exact .of_eq rfl rfl rfl
  · simp [hb] at hn
  · simp [hb] at hn

theorem alike_issueIllegal {j : Job} {s : State} (hb : s.status.busy = true) : Alike j s (issueIllegal s) := by
  rcases issueIllegal_cases s with ⟨-, hi⟩ | ⟨-, -, hi⟩ | ⟨⟨hn, -⟩, -⟩
  · rw [hi]; exact .of_eq rfl rfl rfl
  · rw [hi]; exact .of_eq rfl rfl rfl
  · simp [hb] at hn

theorem alike_portWrite {j : Job} {s t : State} {i : BitVec 5} {v : Word} (h : s.Inv) (hb : s.status.busy = true)
    (hw : portWrite i v s = .next t) : Alike j s t := by
  rcases portWrite_cases i v s with ⟨-, op, -, hi⟩ | ⟨-, -, hi⟩ | ⟨-, -, hi⟩ | ⟨-, -, hi⟩ <;>
    obtain rfl := Host.Outcome.next.inj (hi.symm.trans hw)
  · exact alike_issue hb op
  · exact alike_issueIllegal hb
  · exact .of_eq rfl rfl rfl
  · exact alike_writeSlot h hb _ v

/-- A transaction that respects the running command leaves it as it is. -/
theorem alike_hostOp {j : Job} {s t : State} {o : HostOp} (h : s.Inv) (hj : s.job = some j) (hres : respects j o = true)
    (ho : hostOp o s = .next t) : Alike j s t := by
  have hb : s.status.busy = true := h.busy_of_job hj
  cases o
  case wr i v => exact alike_portWrite h hb ho
  all_goals obtain rfl := Host.Outcome.next.inj ho
  case rd i => exact .of_eq rfl rfl rfl
  case poll i mask val =>
    rcases pollOnce_cases i mask val s with hp | hp <;> rw [hp] <;> exact .of_eq rfl rfl rfl
  case assertReset => cases hres
  case releaseReset => cases hres
  case publish => exact .of_eq rfl rfl rfl
  case store a b v =>
    have hfree : jobCovers j a.toNat = false := by simpa [respects] using hres
    refine ⟨rfl, fun x hx => Memory.answer_set_ne _ (fun e => ?_) b, fun x _ => ?_⟩
    · rw [e, hfree] at hx; cases hx
    · simp [underRunningCommand, hj, hfree]
  case deny a =>
    have hfree : jobCovers j a.toNat = false := by simpa [respects] using hres
    refine ⟨rfl, fun x hx => Memory.answer_deny_ne _ (fun e => ?_), fun x _ => Iff.rfl⟩
    rw [e, hfree] at hx; cases hx

/-- A turn of the host beside a running command: the command's run stands where it stood. -/
theorem alike_hostStep {j : Job} {s t : State} (h : s.Inv) (hj : s.job = some j) (hres : s.host.all (respects j) = true)
    (hs : hostStep s = .next t) : Alike j s t ∧ t.turns = s.turns ∧ t.host.all (respects j) = true := by
  rcases hostStep_cases hs with ⟨-, rfl⟩ | ⟨o, rest, hhost, hop⟩
  · exact ⟨.of_eq rfl rfl rfl, rfl, hres⟩
  · rw [hhost, List.all_cons, Bool.and_eq_true] at hres
    obtain ⟨ho, hrest⟩ := hres
    obtain ⟨hturns, hlist⟩ := hostOp_lists hop
    have hal : Alike j s (s.setHost rest) := .of_eq rfl rfl rfl
    refine ⟨hal.trans (alike_hostOp (inv_setHost h rest) hj ho hop), hturns, ?_⟩
    rcases hlist with hh | hh <;> simp [hh, ho, hrest]

theorem last_of_last_cons {a : Agent} {l : List Agent} (h : ∀ b ∈ (a :: l).getLast?, b = .engine) :
    ∀ b ∈ l.getLast?, b = .engine := fun b hb => h b (by rw [List.getLast?_cons, hb]; rfl)

/-- A schedule that begins with the host and ends with the engine holds a turn of the engine after the first. -/
theorem engine_turn_left {l : List Agent} (h : ∀ b ∈ (Agent.host :: l).getLast?, b = .engine) : 0 < l.count .engine := by
  rw [List.getLast?_cons] at h
  cases hl : l.getLast? with
  | none => cases h .host (by rw [hl]; rfl)
  | some b =>
    obtain rfl : b = .engine := h b (by rw [hl]; rfl)
    exact List.count_pos_iff.2 (List.mem_of_getLast? hl)

/-- Whatever the host does beside it in the turns listed, the last of them the engine's, the command's run stands where the
engine's turns alone lead. -/
theorem run_alike {j : Job} (turns : List Agent) {n : Nat} {s t u : State} (h : Alike j s t) (hinv : t.Inv)
    (hj : s.status.busy = true → s.job = some j) (hturns : t.turns = turns) (hres : t.host.all (respects j) = true)
    (hlast : ∀ a ∈ turns.getLast?, a = .engine) (hn : turns.count .engine = n) (hrun : RunsExactly n s u) :
    ∃ t', core.run turns.length t = .next t' ∧ Alike j u t' := by
  induction turns generalizing n s t with
  | nil =>
    obtain rfl : n = 0 := hn.symm
    obtain rfl := runsExactly_zero.1 hrun
    exact ⟨t, rfl, h⟩
  | cons a l ih =>
    have hlast' := last_of_last_cons hlast
    have hinv' : (t.setTurns l).Inv := inv_setTurns hinv l
    cases a with
    | engine =>
      obtain rfl : n = l.count .engine + 1 := by simpa using hn.symm
      obtain ⟨hb, m, hm, hrun⟩ := runsExactly_succ.1 hrun
      obtain ⟨t', ht', h'⟩ := (h.setTurns_right l).engineStep hj hm
      obtain ⟨-, -, -, -, hhost, htt, -⟩ := engineStep_frame ht'
      obtain ⟨t'', hrun', h''⟩ := ih h' (inv_engineStep hinv' ht')
        (fun hb' => (engineStep_busy_job hm hb').trans (hj hb)) htt (hhost ▸ hres) hlast' rfl hrun
      exact ⟨t'', (run_succ ((step_engine (nextTurn_of_cons hturns)).trans ht') _).trans hrun', h''⟩
    | host =>
      have hn' : l.count .engine = n := by rw [← hn, List.count_cons_of_ne (by decide)]
      obtain ⟨k, rfl⟩ : ∃ k, n = k + 1 := Nat.exists_eq_succ_of_ne_zero (hn' ▸ (engine_turn_left hlast).ne')
      have hb := (runsExactly_succ.1 hrun).1
      obtain ⟨t', ht'⟩ := hostStep_next (t.setTurns l)
      have hjt : (t.setTurns l).job = some j := (job_eq_of_engineState h.engine).trans (hj hb)
      obtain ⟨h', htt, hres'⟩ := alike_hostStep hinv' hjt hres ht'
      obtain ⟨t'', hrun', h''⟩ := ih ((h.setTurns_right l).trans h') (inv_hostStep hinv' ht') hj htt hres' hlast'
        hn' hrun
      exact ⟨t'', (run_succ ((step_host (nextTurn_of_cons hturns)).trans ht') _).trans hrun', h''⟩

/-- Settles O53, by `run_alike` from the state alike to itself. -/
theorem hostTrafficDoesNotChangeARun : Obligations.HostTrafficDoesNotChangeARun := by
  intro s u j n h hj hres hlast hn hrun
  obtain ⟨t, ht, hal⟩ := run_alike s.turns (Alike.of_eq rfl rfl rfl) h (fun _ => hj) rfl hres
    (by simp [hlast]) hn hrun
  have e := hal.engine
  exact ⟨t, ht, job_eq_of_engineState e, phase_eq_of_engineState e, (congrArg State.acc e :), (congrArg State.pend e :),
    (congrArg State.pos e :), (congrArg State.hpos e :), (congrArg State.hb e :), (congrArg State.hph e :),
    sameResults_of_engineState e, faultAddr_eq_of_engineState e, status_eq_of_engineState e⟩

end Sys2Proof.Machine

namespace Sys2Proof.Machine

/-! ### The host's turns (R45, R55) -/

/-- A POLL alone can stand at the head of the host's list again (R55). -/
theorem hostOp_lists_of_ne_poll {s t : State} {o : HostOp} (ho : hostOp o s = .next t)
    (hp : ∀ i mask val, o ≠ .poll i mask val) : t.host = s.host ∧ t.turns = s.turns := by
  cases o
  case wr i v =>
    obtain ⟨-, -, -, hhost, hturns, -⟩ := portWrite_sameOutside ho
    exact ⟨hhost, hturns⟩
  case poll i mask val => exact absurd rfl (hp i mask val)
  all_goals
    obtain rfl := Host.Outcome.next.inj ho
    exact ⟨rfl, rfl⟩

theorem pollOnce_eq (i : BitVec 5) (mask val : Word) (s : State) :
    pollOnce i mask val s = { s with
      host := if portRead s i &&& mask = val then s.host else .poll i mask val :: s.host
      lastRead := some (portRead s i) } := by
  unfold pollOnce
  split <;> rfl

theorem hostStep_nil {s : State} (h : s.host = []) : hostStep s = .next s := by
  simp only [hostStep, h]

/-- Settles O5, by what a turn of the host does with its list and what each transaction leaves of it. -/
theorem hostTransactionsTakeEffectInOrder : Obligations.HostTransactionsTakeEffectInOrder := by
  refine ⟨fun s o rest turns hn hh => ?_, fun s turns hn hh => ?_, fun _ _ _ => rfl, fun _ _ => rfl,
    fun s i mask val => congrArg _ (pollOnce_eq i mask val s), fun s t o => hostOp_lists_of_ne_poll⟩
  · exact (step_host hn).trans (hostStep_cons (s := s.setTurns turns) hh)
  · exact (step_host hn).trans (hostStep_nil (s := s.setTurns turns) hh)

/-! ### What the platform answers, and where a byte is free (R32, R33, R43) -/

/-- Settles O16: memory is among what commands, the engine and the register port leave as they are. -/
theorem blockNeverWritesMemory : Obligations.BlockNeverWritesMemory := by
  refine ⟨fun i s t h => ?_, fun s t h => ?_, fun s t i v h => ?_⟩
  · obtain rfl := Host.Outcome.next.inj ((exec_eq_issue i s).symm.trans h)
    exact (issue_frame i s).2.1
  · exact (engineStep_frame h).2.1
  · exact (portWrite_sameOutside h).1

theorem memRead_busError {s : State} {a : Nat} (h : s.mem.answer a = .busError) : memRead s a = (.busError, s) := by
  simp only [memRead, h]

theorem memRead_settled {s : State} {a : Nat} {b : Byte} (h : s.mem.answer a = .ok b) (hd : a ∉ s.disturbed) :
    memRead s a = (.ok b, s) := by
  simp only [memRead, h, if_neg hd]

theorem memRead_free {s : State} {a : Nat} {b : Byte} (h : s.mem.answer a = .ok b) (hd : a ∈ s.disturbed) :
    memRead s a = (.ok (Config.freeByte s.draws), s.setDraws (s.draws + 1)) := by
  simp only [memRead, h, if_pos hd]

/-- Settles O17, by the three cases of a read. -/
theorem readReturnsTheAnswerOrAFreeByte : Obligations.ReadReturnsTheAnswerOrAFreeByte := fun _ _ =>
  ⟨memRead_busError, fun _ => memRead_settled, fun _ => memRead_free⟩

theorem mem_insertAddr_self (a : Nat) (l : List Nat) : a ∈ insertAddr a l := by
  unfold insertAddr
  split
  · assumption
  · exact List.mem_cons_self

theorem underRunningCommand_eq {s : State} {j : Job} (hb : s.status.busy = true) (hj : s.job = some j) (a : Nat) :
    underRunningCommand s a = jobCovers j a := by
  simp [underRunningCommand, hb, hj]

/-- An accepted command has started: BUSY is 1 after the write of its word only then (R65). -/
theorem startJob_of_accepted {i : Instr} {s t : State} (hr : Ready s) (h : exec i s = .next t) (hb : t.status.busy = true) :
    firstIllegal (regionsOf (copyOperands i s)) = none ∧
      t = startJob (copyOperands i s) (s.setStatus s.status.takeCommand) := by
  obtain ⟨hbusy, hin⟩ := hr
  obtain rfl := Host.Outcome.next.inj ((exec_eq_issue i s).symm.trans h)
  rcases issue_cases i s with ⟨hi, -⟩ | ⟨-, hi, -⟩ | ⟨-, r, -, hi⟩ | ⟨-, hl, hi⟩
  · rw [hin] at hi; cases hi
  · rw [hbusy] at hi; cases hi
  · rw [hi] at hb; cases hb
  · exact ⟨hl, hi⟩

/-- Settles O18, from what a store and the acceptance of a command do to the two lists of free bytes. -/
theorem unsettledBytesAreFree : Obligations.UnsettledBytesAreFree := by
  refine ⟨fun s t j a b visible hb hj hc hne h => ?_, fun s t a b hne h => ?_, fun s t i hr h hb => ?_, fun _ => rfl⟩
  · obtain rfl := Host.Outcome.next.inj h
    simp [underRunningCommand_eq hb hj, hc, hne, mem_insertAddr_self]
  · obtain rfl := Host.Outcome.next.inj h
    simp [hne, mem_insertAddr_self]
  · obtain ⟨-, rfl⟩ := startJob_of_accepted hr h hb
    rfl

/-! ### An engine step on another memory (R32, R41) -/

/-- `s` on a platform with another memory. -/
def State.setMem (m : Memory) (s : State) : State := { s with mem := m }

/-- A read depends on memory only through the answer at its address. -/
theorem memRead_setMem {s : State} {m : Memory} {a : Nat} (h : m.answer a = s.mem.answer a) :
    memRead (s.setMem m) a = ((memRead s a).1, (memRead s a).2.setMem m) := by
  have hm : (s.setMem m).mem.answer a = s.mem.answer a := h
  cases ha : s.mem.answer a with
  | busError => rw [memRead_busError ha, memRead_busError (hm.trans ha)]
  | ok b =>
    by_cases hd : a ∈ s.disturbed
    · rw [memRead_free ha hd, memRead_free (hm.trans ha) hd]
      rfl
    · rw [memRead_settled ha hd, memRead_settled (hm.trans ha) hd]

/-- The memory address of a stream byte; none for a byte of the pseudo-header (R57). -/
def StreamSource.address (x : StreamSource) : Option Nat :=
  match x with
  | .pseudoHeader _ => none
  | .memory a => some a

section
variable {j : Job} {s t : State} {a : Nat} {b : Byte}

theorem headerStep_of_busError (h : memRead s (j.aAddr.toNat + (hdrOffsets j.op).getD s.hpos 0) = (.busError, t)) :
    headerStep j s = endError .bus (some (BitVec.ofNat 32 (j.aAddr.toNat + (hdrOffsets j.op).getD s.hpos 0))) t := by
  simp only [headerStep, h]

theorem headerStep_of_ok (h : memRead s (j.aAddr.toNat + (hdrOffsets j.op).getD s.hpos 0) = (.ok b, t)) :
    headerStep j s = latchHeader j ((hdrOffsets j.op).getD s.hpos 0) b t := by
  simp only [headerStep, h]

theorem streamStep_of_pseudoHeader {k : Nat} (hs : streamSource j s.pos = .pseudoHeader k) :
    streamStep j s = takeStreamByte j (byteAt s.hph k) s := by
  simp only [streamStep, hs]

theorem streamStep_of_busError (hs : streamSource j s.pos = .memory a) (h : memRead s a = (.busError, t)) :
    streamStep j s = endError .bus (some (BitVec.ofNat 32 a)) t := by
  simp only [streamStep, hs, h]

theorem streamStep_of_ok (hs : streamSource j s.pos = .memory a) (h : memRead s a = (.ok b, t)) :
    streamStep j s = takeStreamByte j b t := by
  simp only [streamStep, hs, h]

theorem readRequest_hdr (hj : s.job = some j) (hp : s.phase = .hdr) :
    readRequest s = some (j.aAddr.toNat + (hdrOffsets j.op).getD s.hpos 0) := by
  simp only [readRequest, hj, hp]

theorem readRequest_stream (hj : s.job = some j) (hp : s.phase = .stream) :
    readRequest s = (streamSource j s.pos).address := by
  simp only [readRequest, hj, hp]
  cases streamSource j s.pos <;> rfl

theorem readRequest_finish (hj : s.job = some j) (hp : s.phase = .finish) : readRequest s = none := by
  simp only [readRequest, hj, hp]

end

section
variable {j : Job} {s : State} {m : Memory} (hj : s.job = some j)
  (hm : ∀ a, readRequest s = some a → m.answer a = s.mem.answer a)
include hj hm

theorem headerStep_setMem (hp : s.phase = .hdr) : headerStep j (s.setMem m) = (headerStep j s).setMem m := by
  have hread := memRead_setMem (hm _ (readRequest_hdr hj hp))
  rcases memRead_cases s (j.aAddr.toNat + (hdrOffsets j.op).getD s.hpos 0) with ⟨-, h⟩ | ⟨_, c, d, -, h⟩ <;>
    rw [h] at hread
  · rw [headerStep_of_busError h, headerStep_of_busError (s := s.setMem m) hread]
    rfl
  · rw [headerStep_of_ok h, headerStep_of_ok (s := s.setMem m) hread]
    rfl

theorem streamStep_setMem (hp : s.phase = .stream) : streamStep j (s.setMem m) = (streamStep j s).setMem m := by
  have hreq := readRequest_stream hj hp
  cases hsrc : streamSource j s.pos with
  | pseudoHeader k =>
    rw [streamStep_of_pseudoHeader hsrc, streamStep_of_pseudoHeader (s := s.setMem m) hsrc]
    rfl
  | memory a =>
    rw [hsrc] at hreq
    have hread := memRead_setMem (hm a hreq)
    rcases memRead_cases s a with ⟨-, h⟩ | ⟨_, c, d, -, h⟩ <;> rw [h] at hread
    · rw [streamStep_of_busError hsrc h, streamStep_of_busError (s := s.setMem m) hsrc hread]
      rfl
    · rw [streamStep_of_ok hsrc h, streamStep_of_ok (s := s.setMem m) hsrc hread]
      rfl

theorem engineMove_setMem : engineMove j (s.setMem m) = (engineMove j s).setMem m := by
  cases hp : s.phase with
  | idle => simp [engineMove, State.setMem, hp]
  | hdr => rw [engineMove_hdr hp, engineMove_hdr (s := s.setMem m) hp, headerStep_setMem hj hm hp]
  | stream => rw [engineMove_stream hp, engineMove_stream (s := s.setMem m) hp, streamStep_setMem hj hm hp]
  | finish =>
    rw [engineMove_finish hp, engineMove_finish (s := s.setMem m) hp]
    rfl

end

theorem engineStep_idle {s : State} (h : s.inReset = true ∨ s.status.busy = false) : engineStep s = .next s := by
  rcases h with h | h <;> simp [engineStep, h]

/-- Settles O19: the enabled step commutes with a change of memory away from the address it requests. -/
theorem engineReadsOnlyTheRequestedAddress : Obligations.EngineReadsOnlyTheRequestedAddress := by
  intro s t m hm h
  rcases engineStep_cases h with ⟨hidle, rfl⟩ | ⟨hr, hb, j, hj, hc, hl, rfl⟩
  · exact engineStep_idle (s := t.setMem m) hidle
  · exact (engineStep_running (s := s.setMem m) hr hb hj hc hl).trans (congrArg _ (engineMove_setMem hj hm))

/-! ### The requests of a run (R41) -/

theorem requestsOf_succ {s t : State} (h : engineStep s = .next t) (n : Nat) :
    requestsOf (n + 1) s = (readRequest s).toList ++ requestsOf n t := by
  simp only [requestsOf, h]

/-- The header addresses that a command has still to request when it has read `k` header bytes (R66, R80, R86). -/
def headerRequests (j : Job) (k : Nat) : List Nat := ((hdrOffsets j.op).drop k).map (j.aAddr.toNat + ·)

/-- The stream addresses that a command has still to request when it has taken `i` stream bytes (R57, R67). -/
def streamRequests (j : Job) (i : Nat) : List Nat :=
  (List.range' i (streamLen j - i)).filterMap fun k => (streamSource j k).address

theorem headerRequests_of_lt {j : Job} {k : Nat} (h : k < (hdrOffsets j.op).length) :
    headerRequests j k = (j.aAddr.toNat + (hdrOffsets j.op).getD k 0) :: headerRequests j (k + 1) := by
  rw [headerRequests, headerRequests, List.drop_eq_getElem_cons h, List.map_cons, List.getD_eq_getElem _ _ h]

theorem streamRequests_of_lt {j : Job} {i : Nat} (h : i < streamLen j) :
    streamRequests j i = (streamSource j i).address.toList ++ streamRequests j (i + 1) := by
  obtain ⟨n, hn⟩ : ∃ n, streamLen j - i = n + 1 := ⟨streamLen j - i - 1, by omega⟩
  have hn' : streamLen j - (i + 1) = n := by omega
  rw [streamRequests, streamRequests, hn, hn', List.range'_succ, List.filterMap_cons]
  cases (streamSource j i).address <;> rfl

/-- What the running command `j` has still to request if no read fails. -/
def requestsLeft (j : Job) (s : State) : List Nat := headerRequests j s.hpos ++ streamRequests j s.pos

theorem requestsLeft_finish {j : Job} {s : State} (h : RunInv j s) (hp : s.phase = .finish) : requestsLeft j s = [] := by
  obtain ⟨hhpos, -⟩ := h.assembled (by simp [hp])
  simp [requestsLeft, headerRequests, streamRequests, hhpos, h.finished hp]

/-- A header step takes the first of the requests left. -/
theorem requestsLeft_hdr {j : Job} {s : State} (hj : s.job = some j) (hp : s.phase = .hdr)
    (hlt : s.hpos < (hdrOffsets j.op).length) (o : Nat) (b : Byte) :
    requestsLeft j s = (readRequest s).toList ++ requestsLeft j (latchHeader j o b s) := by
  rw [requestsLeft, headerRequests_of_lt hlt, readRequest_hdr hj hp]
  rfl

/-- A stream step takes the first of the requests left, or none if its byte is one of the pseudo-header. -/
theorem requestsLeft_stream {j : Job} {s : State} (h : RunInv j s) (hj : s.job = some j) (hp : s.phase = .stream)
    (hlt : s.pos < streamLen j) (b : Byte) :
    requestsLeft j s = (readRequest s).toList ++ requestsLeft j (takeStreamByte j b s) := by
  obtain ⟨hhpos, -⟩ := h.assembled (by simp [hp])
  have hnone : headerRequests j s.hpos = [] := by simp [headerRequests, hhpos]
  rw [requestsLeft, requestsLeft, takeStreamByte_hpos, takeStreamByte_pos, hnone, streamRequests_of_lt hlt,
    readRequest_stream hj hp]
  rfl

theorem runsExactly_idle {n : Nat} {s u : State} (hb : s.status.busy = false) (h : RunsExactly n s u) : n = 0 ∧ u = s := by
  cases n with
  | zero => exact ⟨rfl, runsExactly_zero.1 h⟩
  | succ n => exact absurd (runsExactly_succ.1 h).1 (by simp [hb])

/-- A run that ends without an error requests exactly what was left to request when it began. -/
theorem requestsOf_run {n : Nat} {j : Job} {s u : State} (h : RunInv j s) (hj : s.job = some j)
    (hrun : RunsExactly n s u) (hu : u.status.busy = false) (herr : u.status.err = false) (hb : s.status.busy = true)
    (hr : s.inReset = false) : requestsOf n s = requestsLeft j s := by
  induction n generalizing s with
  | zero =>
    obtain rfl := runsExactly_zero.1 hrun
    rw [hb] at hu
    cases hu
  | succ n ih =>
    obtain ⟨-, t, ht, hrun⟩ := runsExactly_succ.1 hrun
    rw [requestsOf_succ ht]
    obtain rfl := Host.Outcome.next.inj ((engineStep_running hr hb hj h.coherent h.legal).symm.trans ht)
    rcases engineMove_cases h.coherent with ⟨a, hm⟩ | ⟨hp, b, d, hm⟩ | ⟨hp, b, d, hm⟩ | ⟨hp, hm⟩ <;> rw [hm] at hrun ⊢
    · obtain ⟨-, rfl⟩ := runsExactly_idle rfl hrun
      cases herr
    · have hlt : s.hpos < (hdrOffsets j.op).length := by simpa [phaseCoherent, hp] using h.coherent
      have hnext : RunInv j (s.setDraws d) := h.congr rfl
      rw [ih (hnext.latchHeader hp hlt _ b) hj hrun hb hr]
      exact (requestsLeft_hdr (s := s.setDraws d) hj hp hlt _ b).symm
    · have hlt : s.pos < streamLen j := by simpa [phaseCoherent, hp] using h.coherent
      have hnext : RunInv j (s.setDraws d) := h.congr rfl
      rw [ih (hnext.takeStreamByte hp hlt b) hj hrun hb hr]
      exact (requestsLeft_stream hnext hj hp hlt b).symm
    · obtain ⟨rfl, -⟩ := runsExactly_idle rfl hrun
      rw [requestsLeft_finish h hp, readRequest_finish hj hp]
      rfl

/-! ### The requests of each command (R57, R80, R86) -/

/-- The addresses of `n` bytes from `a` on. -/
def addressesFrom (a : Word) (n : Nat) : List Nat := (List.range n).map (a.toNat + ·)

theorem filterMap_address_eq {f : Nat → StreamSource} {a : Word} {n : Nat}
    (h : ∀ i, i < n → (f i).address = some (a.toNat + i)) :
    (List.range n).filterMap (fun i => (f i).address) = addressesFrom a n :=
  (List.filterMap_congr fun i hi => h i (List.mem_range.1 hi)).trans (congrFun List.filterMap_eq_map' _)

theorem filterMap_twoRegions (a b : Word) (n m : Nat) :
    (List.range (n + m)).filterMap (fun i => (twoRegions a n b i).address) = addressesFrom a n ++ addressesFrom b m := by
  rw [List.range_add, List.filterMap_append, List.filterMap_map]
  congr 1
  · exact filterMap_address_eq fun i hi => by simp [twoRegions, hi, StreamSource.address]
  · exact filterMap_address_eq (f := fun i => twoRegions a n b (n + i)) fun i _ => by
      simp [twoRegions, StreamSource.address]

theorem filterMap_afterPseudoHeader (b : Word) (n m : Nat) :
    (List.range (n + m)).filterMap (fun i => (afterPseudoHeader n b i).address) = addressesFrom b m := by
  have hph : (List.range n).filterMap (fun i => (afterPseudoHeader n b i).address) = [] := by
    simp +contextual [List.filterMap_eq_nil_iff, afterPseudoHeader, StreamSource.address]
  rw [List.range_add, List.filterMap_append, List.filterMap_map, hph, List.nil_append]
  exact filterMap_address_eq (f := fun i => afterPseudoHeader n b (n + i)) fun i _ => by
    simp [afterPseudoHeader, StreamSource.address]

theorem hdrOffsetsV6_eq : hdrOffsetsV6 = [4, 5, 6] ++ (List.range 32).map (8 + ·) := by decide

theorem headerRequests_zero (j : Job) : headerRequests j 0 = (hdrOffsets j.op).map (j.aAddr.toNat + ·) := rfl

theorem streamRequests_zero (j : Job) :
    streamRequests j 0 = (List.range (streamLen j)).filterMap fun k => (streamSource j k).address := by
  rw [streamRequests, List.range_eq_range', Nat.sub_zero]

/-- The memory bytes of each command's stream, in order (R57). -/
theorem streamRequests_copyOperands (op : Instr) (s : State) :
    streamRequests (copyOperands op s) 0 =
      match op with
      | .sum => addressesFrom s.aAddr s.aLen.toNat
      | .sum2 => addressesFrom s.aAddr s.aLen.toNat ++ addressesFrom s.bAddr s.bLen.toNat
      | .fold => []
      | .verifyIp => addressesFrom s.aAddr 20 ++ addressesFrom s.bAddr s.bLen.toNat
      | .verifyV4 | .verifyV6 => addressesFrom s.bAddr s.bLen.toNat := by
  rw [streamRequests_zero]
  cases op with
  | sum => exact filterMap_address_eq fun _ _ => rfl
  | sum2 => exact filterMap_twoRegions _ _ _ _
  | fold => rfl
  | verifyIp => exact filterMap_twoRegions _ _ _ _
  | verifyV4 => exact filterMap_afterPseudoHeader _ _ _
  | verifyV6 => exact filterMap_afterPseudoHeader _ _ _

/-- Settles O20: an accepted command has all its requests left, and a run without an error makes exactly those. -/
theorem runReadsEachByteOnceInOrder : Obligations.RunReadsEachByteOnceInOrder := by
  intro i s t u n hr h hb hrun hu herr
  obtain ⟨hl, rfl⟩ := startJob_of_accepted hr h hb
  have hstart : requestsOf n _ = headerRequests (copyOperands i s) 0 ++ streamRequests (copyOperands i s) 0 :=
    requestsOf_run (startJob_runInv hl _) rfl hrun hu herr hb hr.2
  rw [hstart, headerRequests_zero, streamRequests_copyOperands]
  cases i
  case verifyV6 => exact congrArg (List.map _ · ++ _) hdrOffsetsV6_eq
  all_goals rfl

end Sys2Proof.Machine

namespace Sys2Proof

/-! ### Command words (R49 to R52, R54) -/

theorem toNat_op (c : Word) : (fieldsOf c).op.toNat = c.toNat % 16 := by
  simp [fieldsOf, BitVec.extractLsb'_toNat]

theorem rsv_eq_zero_iff (c : Word) : (fieldsOf c).rsv = 0 ↔ c.toNat / 16 = 0 := by
  have hc := c.isLt
  rw [← BitVec.toNat_inj]
  simp only [fieldsOf, BitVec.extractLsb'_toNat, Nat.shiftRight_eq_div_pow, BitVec.ofNat_eq_ofNat, BitVec.toNat_ofNat,
    Nat.zero_mod]
  omega

theorem CommandFields.wf_iff {f : CommandFields} : f.wf = true ↔ f.rsv = 0 ∧ 1 ≤ f.op.toNat ∧ f.op.toNat ≤ 6 := by
  simp [CommandFields.wf, and_assoc]

/-- The words whose fields stand for a command are 1 to 6. -/
theorem fieldsOf_wf_iff {c : Word} :
    (fieldsOf c).wf = true ↔ c.toNat / 16 = 0 ∧ 1 ≤ c.toNat % 16 ∧ c.toNat % 16 ≤ 6 := by
  rw [CommandFields.wf_iff, rsv_eq_zero_iff, toNat_op]

theorem decode_of_unassignedOp {c : Word} (hr : (fieldsOf c).rsv = 0)
    (ho : (fieldsOf c).op.toNat = 0 ∨ 7 ≤ (fieldsOf c).op.toNat) : decode c = .error .unassignedOp := by
  rw [decode, if_neg (not_not.2 hr)]
  split
  case h_7 => rfl
  all_goals omega

/-- Fields that stand for no command are refused, for one of the two reasons of R51. -/
theorem decode_of_not_wf {c : Word} (h : ¬ (fieldsOf c).wf = true) : ∃ e, decode c = .error e := by
  by_cases hr : (fieldsOf c).rsv = 0
  · refine ⟨_, decode_of_unassignedOp hr ?_⟩
    by_contra ho
    exact h (CommandFields.wf_iff.2 ⟨hr, by omega, by omega⟩)
  · exact ⟨_, if_pos hr⟩

theorem decode_encode (i : Instr) : decode (encode i) = .ok i := by
  cases i <;> rfl

/-- The encoder is injective, since the decoder undoes it. -/
theorem encode_inj {i k : Instr} : encode i = encode k ↔ i = k :=
  ⟨fun h => Except.ok.inj ((decode_encode i).symm.trans (h ▸ decode_encode k)), congrArg encode⟩

/-- Each command of the table has R49's and R50's fields, by the lemma of `Laws.OpField` for it. -/
theorem opField_statement (i : Instr) : Laws.OpField.Statement i := by
  cases i with
  | sum => exact Laws.OpField.sum
  | sum2 => exact Laws.OpField.sum2
  | fold => exact Laws.OpField.fold
  | verifyIp => exact Laws.OpField.verifyIp
  | verifyV4 => exact Laws.OpField.verifyV4
  | verifyV6 => exact Laws.OpField.verifyV6

theorem fieldsOf_encode_wf (i : Instr) : (fieldsOf (encode i)).wf = true := by
  obtain ⟨-, -, hwf, -⟩ := opField_statement i
  exact hwf

theorem instr_wf (i : Instr) : i.wf = true := by
  cases i <;> rfl

/-- A well-formed word is the word of some command. -/
theorem exists_encode_of_wf {c : Word} (h : (fieldsOf c).wf = true) : ∃ i, c = encode i := by
  obtain ⟨hrsv, hlo, hhi⟩ := fieldsOf_wf_iff.1 h
  have hc : c.toNat = 1 ∨ c.toNat = 2 ∨ c.toNat = 3 ∨ c.toNat = 4 ∨ c.toNat = 5 ∨ c.toNat = 6 := by omega
  rcases hc with hc | hc | hc | hc | hc | hc
  · exact ⟨.sum, BitVec.eq_of_toNat_eq hc⟩
  · exact ⟨.sum2, BitVec.eq_of_toNat_eq hc⟩
  · exact ⟨.fold, BitVec.eq_of_toNat_eq hc⟩
  · exact ⟨.verifyIp, BitVec.eq_of_toNat_eq hc⟩
  · exact ⟨.verifyV4, BitVec.eq_of_toNat_eq hc⟩
  · exact ⟨.verifyV6, BitVec.eq_of_toNat_eq hc⟩

theorem decode_eq_ok_iff {c : Word} {i : Instr} : decode c = .ok i ↔ c = encode i := by
  refine ⟨fun hd => ?_, fun hc => hc ▸ decode_encode i⟩
  by_cases h : (fieldsOf c).wf = true
  · obtain ⟨k, rfl⟩ := exists_encode_of_wf h
    exact encode_inj.2 (Except.ok.inj ((decode_encode k).symm.trans hd))
  · obtain ⟨e, he⟩ := decode_of_not_wf h
    cases he.symm.trans hd

theorem decode_eq_error_iff {c : Word} : (∃ e, decode c = .error e) ↔ ¬ (fieldsOf c).wf = true := by
  refine ⟨fun ⟨e, he⟩ h => ?_, decode_of_not_wf⟩
  obtain ⟨i, rfl⟩ := exists_encode_of_wf h
  cases (decode_encode i).symm.trans he

theorem decodeTableWord_toNat (c : Word) : decodeTableWord 32 c.toNat = (decode c).toOption := by
  simp only [decodeTableWord, Nat.mod_eq_of_lt c.isLt, if_pos c.isLt, BitVec.ofNat_toNat, BitVec.setWidth_eq]
  cases decode c <;> rfl

/-- Settles O2: a word decodes exactly when its fields are well formed, and then it is the word of its command. -/
theorem onlyTheSixWordsDecode : Obligations.OnlyTheSixWordsDecode := by
  refine fun c => ⟨fun i => decode_eq_ok_iff, decode_eq_error_iff.trans ?_⟩
  rw [fieldsOf_wf_iff]
  omega

/-- Settles O1: the six words are the encoder's, and the others have an OP that is not assigned. -/
theorem commandWordsAreTheTable : Obligations.CommandWordsAreTheTable := by
  refine ⟨⟨decode_encode .sum, decode_encode .sum2, decode_encode .fold, decode_encode .verifyIp, decode_encode .verifyV4,
    decode_encode .verifyV6⟩, decode_of_unassignedOp rfl (.inl rfl), fun w hlo hhi => ?_⟩
  refine decode_of_unassignedOp ((rsv_eq_zero_iff w).2 ?_) (.inr ?_)
  · omega
  · rw [toNat_op]; omega

/-- Settles O3, by `decode_encode` and the well-formedness of every command's fields. -/
theorem decodeOfEncodeIsTheCommand : Obligations.DecodeOfEncodeIsTheCommand := by
  refine fun i => ⟨decode_encode i, ?_, fieldsOf_encode_wf i, instr_wf i⟩
  rw [decodeTableWord_toNat, decode_encode]
  rfl

end Sys2Proof

namespace Sys2Proof.Machine

/-! ### Acceptance of each command (R53, R65) -/

/-- The idle block takes a command whose regions are all legal: the whole next state. -/
theorem exec_accepted {op : Instr} {s : State} {p : Phase} (hr : Ready s)
    (hl : ∀ r ∈ regionsOf (copyOperands op s), regionLegal r = true) (hp : startPhase (copyOperands op s) = p) :
    exec op s = .next { s with
      status := { busy := true, done := false, err := false, ovr := s.status.ovr, verdict := false, errCode := .none }
      job := some (copyOperands op s)
      phase := p
      acc := startAcc (copyOperands op s)
      pend := none, pos := 0, hpos := 0, hb := zeros40, hph := zeros40, disturbed := s.hidden } := by
  obtain ⟨hb, hin⟩ := hr
  have hl := firstIllegal_eq_none.2 hl
  subst hp
  rcases issue_cases op s with ⟨hi, -⟩ | ⟨-, hi, -⟩ | ⟨-, r, hi, -⟩ | ⟨-, -, hi⟩
  · rw [hin] at hi; cases hi
  · rw [hb] at hi; cases hi
  · rw [hl] at hi; cases hi
  · rw [exec_eq_issue, hi]; rfl

/-- A buffer given by an address and a length register. -/
theorem buffer_legal {a n : Word} (h : n = 0 ∨ a.toNat + n.toNat ≤ 2 ^ 32) : regionLegal ⟨a, n.toNat⟩ = true :=
  regionLegal_iff.2 (h.imp_left (congrArg BitVec.toNat))

/-- A header of fixed length at an address. -/
theorem header_legal {a : Word} {n : Nat} (h : a.toNat + n ≤ 2 ^ 32) : regionLegal ⟨a, n⟩ = true :=
  regionLegal_iff.2 (.inr h)

theorem legal_of_two {r q : Region} (hr : regionLegal r = true) (hq : regionLegal q = true) :
    ∀ x ∈ [r, q], regionLegal x = true :=
  List.forall_mem_cons.2 ⟨hr, List.forall_mem_singleton.2 hq⟩

theorem word_toNat_eq_zero {n : Word} : n.toNat = 0 ↔ n = 0 := BitVec.toNat_inj (y := 0)

theorem startPhase_sum (s : State) : startPhase (copyOperands .sum s) = if s.aLen = 0 then .finish else .stream :=
  if_congr word_toNat_eq_zero rfl rfl

theorem startPhase_sum2 (s : State) :
    startPhase (copyOperands .sum2 s) = if s.aLen = 0 ∧ s.bLen = 0 then .finish else .stream :=
  if_congr (Nat.add_eq_zero_iff.trans (and_congr word_toNat_eq_zero word_toNat_eq_zero)) rfl rfl

theorem startPhase_verifyIp (s : State) : startPhase (copyOperands .verifyIp s) = .stream :=
  if_neg (show ipHdrFixedLen + s.bLen.toNat ≠ 0 by simp)

/-- Settles O21, by `exec_accepted` with the one buffer. -/
theorem sumIsAccepted : Obligations.SumIsAccepted := fun s hr ha =>
  exec_accepted hr (List.forall_mem_singleton.2 (buffer_legal ha)) (startPhase_sum s)

/-- Settles O22, by `exec_accepted` with the two buffers. -/
theorem sum2IsAccepted : Obligations.Sum2IsAccepted := fun s hr ha hb =>
  exec_accepted hr (legal_of_two (buffer_legal ha) (buffer_legal hb)) (startPhase_sum2 s)

/-- Settles O23, by `exec_accepted`: FOLD has no region. -/
theorem foldIsAccepted : Obligations.FoldIsAccepted := fun s hr =>
  exec_accepted (op := .fold) (s := s) hr (List.forall_mem_nil _) rfl

/-- Settles O24, by `exec_accepted` with the header and the options. -/
theorem verifyIpIsAccepted : Obligations.VerifyIpIsAccepted := fun s hr ha hb =>
  exec_accepted hr (legal_of_two (header_legal ha) (buffer_legal hb)) (startPhase_verifyIp s)

/-- Settles O25, by `exec_accepted` with the header and the payload. -/
theorem verifyV4IsAccepted : Obligations.VerifyV4IsAccepted := fun s hr ha hb =>
  exec_accepted (op := .verifyV4) (s := s) hr (legal_of_two (header_legal ha) (buffer_legal hb)) rfl

/-- Settles O26, by `exec_accepted` with the header and the payload. -/
theorem verifyV6IsAccepted : Obligations.VerifyV6IsAccepted := fun s hr ha hb =>
  exec_accepted (op := .verifyV6) (s := s) hr (legal_of_two (header_legal ha) (buffer_legal hb)) rfl

end Sys2Proof.Machine

namespace Sys2Proof.Machine

/-! ### The folded sum in closed form (R60, R61, R63) -/

/-- Two values have the same folded sum when they are congruent modulo 0xFFFF and both or neither are 0. -/
theorem closedSum_eq_iff {a b : Nat} : closedSum a = closedSum b ↔ a % 0xFFFF = b % 0xFFFF ∧ (a = 0 ↔ b = 0) := by
  unfold closedSum
  split_ifs <;> omega

theorem closedSum_add_right {a b : Nat} (h : closedSum a = closedSum b) (c : Nat) : closedSum (a + c) = closedSum (b + c) := by
  obtain ⟨hmod, hzero⟩ := closedSum_eq_iff.1 h
  exact closedSum_eq_iff.2 (by omega)

theorem closedSum_of_lt {a : Nat} (h : a < 2 ^ 16) : closedSum a = a := by
  unfold closedSum
  split <;> omega

theorem closedSum_lt (a : Nat) : closedSum a < 2 ^ 16 := by
  unfold closedSum
  split <;> omega

theorem closedSum_eq_zero {a : Nat} : closedSum a = 0 ↔ a = 0 := by
  unfold closedSum
  split <;> omega

theorem closedSum_eq_top {a : Nat} : closedSum a = 0xFFFF ↔ a ≠ 0 ∧ a % 0xFFFF = 0 := by
  unfold closedSum
  split <;> omega

/-! ### The carry fold (R60) -/

theorem toNat_foldPass_le (v : Word) : (foldPass v).toNat ≤ 0x1FFFE := by
  have := v.isLt
  rw [toNat_foldPass]
  omega

theorem closedSum_foldPass (v : Word) : closedSum (foldPass v).toNat = closedSum v.toNat := by
  rw [toNat_foldPass]
  exact closedSum_eq_iff.2 (by omega)

theorem foldLoop_of_fits {v : Word} (h : v.toNat < 2 ^ 16) (n : Nat) : foldLoop n v = v := by
  cases n with
  | zero => rfl
  | succ n => exact if_pos (highHalf_eq_zero.2 h)

theorem foldLoop_succ_of_not_fits {v : Word} (h : ¬ v.toNat < 2 ^ 16) (n : Nat) :
    foldLoop (n + 1) v = foldLoop n (foldPass v) :=
  if_neg fun hz => h (highHalf_eq_zero.1 hz)

/-- Where the loop stops within two passes, so that more passes allowed change nothing: a 16-bit value with the same folded sum. -/
theorem foldLoop_two_add (v : Word) :
    ∃ w : Word, w.toNat < 2 ^ 16 ∧ closedSum w.toNat = closedSum v.toNat ∧ ∀ n, foldLoop (2 + n) v = w := by
  by_cases hv : v.toNat < 2 ^ 16
  · exact ⟨v, hv, rfl, fun n => foldLoop_of_fits hv _⟩
  by_cases hp : (foldPass v).toNat < 2 ^ 16
  · refine ⟨foldPass v, hp, closedSum_foldPass v, fun n => ?_⟩
    rw [Nat.add_comm, foldLoop_succ_of_not_fits hv, foldLoop_of_fits hp]
  · have hfits : (foldPass (foldPass v)).toNat < 2 ^ 16 := by
      have := toNat_foldPass_le v
      rw [toNat_foldPass]
      omega
    refine ⟨foldPass (foldPass v), hfits, (closedSum_foldPass _).trans (closedSum_foldPass v), fun n => ?_⟩
    rw [Nat.add_comm, foldLoop_succ_of_not_fits hv, foldLoop_succ_of_not_fits hp, foldLoop_of_fits hfits]

/-- The folded value of any 32-bit value (R61, R63). -/
theorem toNat_fold16 (v : Word) : (fold16 v).toNat = closedSum v.toNat := by
  obtain ⟨w, hfits, hsum, hloop⟩ := foldLoop_two_add v
  rw [fold16, hloop 0, toNat_lowHalf, ← hsum, closedSum_of_lt hfits]
  exact Nat.mod_eq_of_lt hfits

theorem fold16_eq_iff {v w : Word} : fold16 v = fold16 w ↔ closedSum v.toNat = closedSum w.toNat := by
  rw [← BitVec.toNat_inj, toNat_fold16, toNat_fold16]

/-- Settles O34, by where the loop stops. -/
theorem foldEndsWithinTwoPasses : Obligations.FoldEndsWithinTwoPasses := by
  refine ⟨fun v => ?_, fun v => ⟨toNat_foldPass v, toNat_foldPass_le v⟩, fun v hv => ?_, by decide, by decide, by decide⟩
  · obtain ⟨w, hfits, -, hloop⟩ := foldLoop_two_add v
    rw [hloop 0]
    exact ⟨highHalf_eq_zero.2 hfits, hloop⟩
  · rw [toNat_fold16, closedSum_of_lt hv]

/-- Settles O35: the folded value is `closedSum`, and the complement is the bit-flip. -/
theorem foldedValueHasAClosedForm : Obligations.FoldedValueHasAClosedForm :=
  ⟨toNat_fold16, fun x => ⟨complement16_eq_not x, by rw [complement16_eq_not, complement16_eq_not, BitVec.not_not]⟩⟩

/-! ### The sum of many words (R59, R63) -/

theorem closedSum_accumulate {acc : Word} (h : acc.getLsbD 31 = false) (w : Half) :
    closedSum (accumulate acc w).toNat = closedSum (acc.toNat + w.toNat) := by
  obtain ⟨-, -, -, -, hmod, hzero⟩ := accumulatorNeverOverflows acc w h
  rw [← BitVec.toNat_inj, ← BitVec.toNat_inj (x := acc), ← BitVec.toNat_inj (x := w)] at hzero
  exact closedSum_eq_iff.2 ⟨hmod, hzero.trans Nat.add_eq_zero_iff.symm⟩

/-- An accumulator with its top bit clear loses no word, in the folded sum, however many it takes. -/
theorem closedSum_foldl_accumulate {acc : Word} (h : acc.getLsbD 31 = false) (ws : List Half) :
    closedSum (ws.foldl accumulate acc).toNat = closedSum (acc.toNat + totalOf ws) := by
  induction ws generalizing acc with
  | nil => rfl
  | cons w ws ih =>
    rw [List.foldl_cons, ih (accumulate_bit31 h w), closedSum_add_right (closedSum_accumulate h w), totalOf_cons,
      Nat.add_assoc]

/-- The sum of words from 0, by R59's schedule, has the folded sum of their total (R63). -/
theorem closedSum_accumulate_words (ws : List Half) : closedSum (ws.foldl accumulate 0).toNat = closedSum (totalOf ws) := by
  simpa using closedSum_foldl_accumulate (acc := 0) (by decide) ws

theorem toNat_fold16_words (ws : List Half) : (fold16 (ws.foldl accumulate 0)).toNat = closedSum (totalOf ws) := by
  rw [toNat_fold16, closedSum_accumulate_words]

theorem fold16_words_of_total_eq {ws vs : List Half} (h : totalOf ws = totalOf vs) :
    fold16 (ws.foldl accumulate 0) = fold16 (vs.foldl accumulate 0) := by
  rw [← BitVec.toNat_inj, toNat_fold16_words, toNat_fold16_words, h]

theorem totalOf_perm {ws vs : List Half} (h : ws.Perm vs) : totalOf ws = totalOf vs := (h.map BitVec.toNat).sum_eq

/-- Settles O39: the folded sum depends on the words through their total only. -/
theorem wordOrderDoesNotMatter : Obligations.WordOrderDoesNotMatter :=
  fun _ _ h => fold16_words_of_total_eq (totalOf_perm h)

/-! ### The checksum and the verdict (R61, R62) -/

theorem complement16_eq_top {x : Half} : complement16 x = 0xFFFF ↔ x.toNat = 0 := by
  have := x.isLt
  rw [complement16_eq_not, ← BitVec.toNat_inj, BitVec.toNat_not]
  show 2 ^ 16 - 1 - x.toNat = 0xFFFF ↔ _
  omega

theorem complement16_eq_zero {x : Half} : complement16 x = 0 ↔ x.toNat = 0xFFFF := by
  have := x.isLt
  rw [complement16_eq_not, ← BitVec.toNat_inj, BitVec.toNat_not]
  show 2 ^ 16 - 1 - x.toNat = 0 ↔ _
  omega

theorem verdictOf_complement16 (x : Half) : verdictOf (complement16 x) = true ↔ x.toNat = 0xFFFF ∨ x.toNat = 0 := by
  rw [← complement16_eq_zero, ← complement16_eq_top]
  simp [verdictOf]

/-- The verdict on a value with the folded sum of `T` (R62, R63). -/
theorem verdictOf_fold16 {v : Word} {T : Nat} (h : closedSum v.toNat = closedSum T) :
    verdictOf (complement16 (fold16 v)) = decide (T % 0xFFFF = 0) := by
  rw [Bool.eq_iff_iff, verdictOf_complement16, decide_eq_true_iff, toNat_fold16, h, closedSum_eq_top, closedSum_eq_zero]
  omega

theorem joinBytes_eq_zero {hi lo : Byte} : (joinBytes hi lo).toNat = 0 ↔ hi = 0 ∧ lo = 0 := by
  rw [toNat_joinBytes, ← BitVec.toNat_inj, ← BitVec.toNat_inj (x := lo)]
  simp

/-- The words of a stream add up to 0 only if every byte is 0 (R63). -/
theorem totalOf_wordsOf_eq_zero : ∀ bs : List Byte, totalOf (wordsOf bs) = 0 ↔ ∀ b ∈ bs, b = 0
  | [] => by simp
  | [a] => by simp [joinBytes_eq_zero]
  | a :: b :: r => by
    rw [wordsOf_cons_cons, totalOf_cons, Nat.add_eq_zero_iff, joinBytes_eq_zero, totalOf_wordsOf_eq_zero r]
    simp [and_assoc]

/-- Settles O37, from the closed form of a sum of words and the two values of a checksum that verify. -/
theorem streamSumHasAClosedForm : Obligations.StreamSumHasAClosedForm := by
  intro bs
  have hsum : (streamSum bs).toNat = closedSum (totalOf (wordsOf bs)) := toNat_fold16_words _
  refine ⟨hsum, ?_, ?_, ?_⟩
  · rw [streamSum, verdictOf_fold16 (closedSum_accumulate_words _), decide_eq_true_iff]
  · rw [complement16_eq_top, hsum, closedSum_eq_zero, totalOf_wordsOf_eq_zero]
  · rw [complement16_eq_zero, hsum, closedSum_eq_top]

/-! ### Other schedules of incremental folds (R59, R63) -/

theorem toNat_addThenMaybeFold {acc : Word} {w : Half} (h : acc.toNat + w.toNat < 2 ^ 32) (f : Bool) :
    (addThenMaybeFold acc (w, f)).toNat =
      if f then (acc.toNat + w.toNat) % 65536 + (acc.toNat + w.toNat) / 65536 else acc.toNat + w.toNat := by
  have hv : (acc + w.setWidth 32).toNat = acc.toNat + w.toNat := by
    rw [BitVec.toNat_add, BitVec.toNat_setWidth]
    omega
  unfold addThenMaybeFold
  split
  · rw [toNat_foldPass, hv]
  · exact hv

/-- A schedule under which nothing leaves 32 bits loses no word, in the folded sum. -/
theorem closedSum_of_fits {acc : Word} {l : List (Half × Bool)} (h : fitsThroughout acc l = true) :
    closedSum (l.foldl addThenMaybeFold acc).toNat = closedSum (acc.toNat + totalOf (l.map Prod.fst)) := by
  induction l generalizing acc with
  | nil => rfl
  | cons wf l ih =>
    obtain ⟨w, f⟩ := wf
    obtain ⟨hfit, hrest⟩ := fitsThroughout_cons.1 h
    have hstep : closedSum (addThenMaybeFold acc (w, f)).toNat = closedSum (acc.toNat + w.toNat) := by
      rw [toNat_addThenMaybeFold hfit, closedSum_eq_iff]
      split <;> omega
    rw [List.foldl_cons, ih hrest, closedSum_add_right hstep, List.map_cons, totalOf_cons, Nat.add_assoc]

theorem fits_of_total_lt {acc : Word} {l : List (Half × Bool)} (h : acc.toNat + totalOf (l.map Prod.fst) < 2 ^ 32) :
    fitsThroughout acc l = true := by
  induction l generalizing acc with
  | nil => rfl
  | cons wf l ih =>
    obtain ⟨w, f⟩ := wf
    have h : acc.toNat + (w.toNat + totalOf (l.map Prod.fst)) < 2 ^ 32 := h
    have hfit : acc.toNat + w.toNat < 2 ^ 32 := by omega
    refine fitsThroughout_cons.2 ⟨hfit, ih ?_⟩
    rw [toNat_addThenMaybeFold hfit]
    split <;> omega

theorem fits_of_fold_always {acc : Word} (h : acc.toNat ≤ 0x1FFFE) (ws : List Half) :
    fitsThroughout acc (ws.map fun w => (w, true)) = true := by
  induction ws generalizing acc with
  | nil => rfl
  | cons w ws ih =>
    have hw := w.isLt
    exact fitsThroughout_cons.2 ⟨by omega, ih (toNat_foldPass_le _)⟩

/-- Settles O38: each schedule that fits has the folded sum of the words' total. -/
theorem foldScheduleDoesNotMatter : Obligations.FoldScheduleDoesNotMatter := by
  refine ⟨fun l h => ?_, fun l h => fits_of_total_lt (by simpa using h), fits_of_fold_always (by decide)⟩
  rw [fold16_eq_iff, closedSum_of_fits h, closedSum_accumulate_words]
  simp

/-! ### Swapped bytes (R64) -/

theorem toNat_swapBytes (w : Half) : (swapBytes w).toNat = 256 * (w.toNat % 256) + w.toNat / 256 := by
  have := w.isLt
  rw [swapBytes, toNat_joinBytes, BitVec.extractLsb'_toNat, BitVec.extractLsb'_toNat, Nat.shiftRight_eq_div_pow,
    Nat.shiftRight_eq_div_pow]
  omega

/-- Swapping the bytes of a word multiplies it by 256, modulo 0xFFFF. -/
theorem closedSum_swapBytes (w : Half) : closedSum (swapBytes w).toNat = closedSum (256 * w.toNat) := by
  rw [toNat_swapBytes]
  exact closedSum_eq_iff.2 (by omega)

theorem closedSum_total_swapBytes (ws : List Half) :
    closedSum (totalOf (ws.map swapBytes)) = closedSum (256 * totalOf ws) := by
  induction ws with
  | nil => rfl
  | cons w ws ih =>
    rw [List.map_cons, totalOf_cons, totalOf_cons, closedSum_add_right (closedSum_swapBytes w), Nat.add_comm,
      closedSum_add_right ih, Nat.mul_add, Nat.add_comm]

/-- Settles O40: swapping the bytes of the words, or those of the folded sum, multiplies the total by 256. -/
theorem byteSwapSwapsTheSum : Obligations.ByteSwapSwapsTheSum := by
  intro ws
  have hmul : closedSum (256 * totalOf ws) = closedSum (256 * closedSum (totalOf ws)) := by
    have h : closedSum (closedSum (totalOf ws)) = closedSum (totalOf ws) := closedSum_of_lt (closedSum_lt _)
    obtain ⟨hmod, hzero⟩ := closedSum_eq_iff.1 h
    exact closedSum_eq_iff.2 (by omega)
  rw [← BitVec.toNat_inj, toNat_fold16_words, closedSum_total_swapBytes, hmul, ← toNat_fold16_words, ← closedSum_swapBytes,
    closedSum_of_lt (BitVec.isLt _)]

/-! ### The splice of two buffers (R72) -/

theorem spliceWords_nil (b : List Byte) : spliceWords [] b = wordsOf b := rfl

theorem spliceWords_one (x : Byte) (b : List Byte) : spliceWords [x] b = wordsOf (x :: b) := by
  cases b <;> rfl

theorem spliceWords_cons_cons (x y : Byte) (r b : List Byte) :
    spliceWords (x :: y :: r) b = joinBytes x y :: spliceWords r b := by
  have hpar : (x :: y :: r).length % 2 = r.length % 2 := by
    simp only [List.length_cons]
    omega
  unfold spliceWords
  rw [hpar]
  split
  · rename_i hodd
    obtain ⟨z, r, rfl⟩ := List.exists_cons_of_ne_nil (l := r) (by rintro rfl; cases hodd)
    cases b <;> rfl
  · rfl

/-- Settles O41, by induction on the first buffer, two bytes at a time. -/
theorem spliceIsConcatenation : Obligations.SpliceIsConcatenation
  | [], b => spliceWords_nil b
  | [x], b => spliceWords_one x b
  | x :: y :: r, b => by
    rw [spliceWords_cons_cons, spliceIsConcatenation r b]
    rfl

end Sys2Proof.Machine

namespace Sys2Proof.Machine

/-! ### A CMD write while BUSY (R95 item 1, R110) -/

theorem takeCommand_busy {s : State} (hb : s.status.busy = true) (hr : s.inReset = false) (go : State → State) :
    takeCommand go s = s.setStatus s.status.dropCommand := by
  simp [takeCommand, hb, hr]

/-- Settles O27: whether the word decodes or not, the write is dropped. -/
theorem commandWhileBusyOnlySetsOvr : Obligations.CommandWhileBusyOnlySetsOvr := by
  intro s c hb hr
  show writeCmd c s = _
  rcases writeCmd_cases c s with ⟨i, -, h⟩ | ⟨e, -, h⟩ <;> rw [h]
  · exact congrArg _ (takeCommand_busy hb hr _)
  · exact congrArg _ (takeCommand_busy hb hr _)

/-! ### A command that runs (R26, R70) -/

/-- Command `j` runs, in a hidden state that its own steps leave between them. -/
structure Running (j : Job) (s : State) : Prop where
  job : s.job = some j
  busy : s.status.busy = true
  released : s.inReset = false
  inv : RunInv j s

theorem State.Inv.toRunning {s : State} {j : Job} (h : s.Inv) (hj : s.job = some j) : Running j s :=
  ⟨hj, h.busy_of_job hj, h.released (h.busy_of_job hj), h.running j hj⟩

section
variable {j : Job} {s : State} {o : Nat} {b : Byte} (h : Running j s)
include h

theorem Running.engineStep : engineStep s = .next (engineMove j s) :=
  engineStep_running h.released h.busy h.job h.inv.coherent h.inv.legal

theorem Running.setDraws (d : Nat) : Running j (s.setDraws d) := ⟨h.job, h.busy, h.released, h.inv.congr rfl⟩

theorem Running.hpos_lt (hp : s.phase = .hdr) : s.hpos < (hdrOffsets j.op).length := by
  simpa [phaseCoherent, hp] using h.inv.coherent

theorem Running.pos_lt (hp : s.phase = .stream) : s.pos < streamLen j := by
  simpa [phaseCoherent, hp] using h.inv.coherent

theorem Running.latchHeader (hp : s.phase = .hdr) (o : Nat) (b : Byte) : Running j (latchHeader j o b s) :=
  ⟨h.job, h.busy, h.released, h.inv.latchHeader hp (h.hpos_lt hp) o b⟩

theorem Running.takeStreamByte (hp : s.phase = .stream) (b : Byte) : Running j (takeStreamByte j b s) :=
  ⟨h.job, h.busy, h.released, h.inv.takeStreamByte hp (h.pos_lt hp) b⟩

/-- While header bytes are left, the phase is HDR. -/
theorem Running.phase_hdr (hlt : s.hpos < (hdrOffsets j.op).length) : s.phase = .hdr := by
  by_contra hp
  have := (h.inv.assembled hp).1
  omega

/-- After the header, while stream bytes are left, the phase is STREAM. -/
theorem Running.phase_stream (hp : s.phase ≠ .hdr) (hlt : s.pos < streamLen j) : s.phase = .stream := by
  rcases phaseCoherent_iff.1 h.inv.coherent with ⟨hh, -⟩ | ⟨hs, -⟩ | hf
  · exact absurd hh hp
  · exact hs
  · have := h.inv.finished hf
    omega

/-- After the header, when no stream byte is left, the phase is FINISH. -/
theorem Running.phase_finish (hp : s.phase ≠ .hdr) (hpos : s.pos = streamLen j) : s.phase = .finish := by
  rcases phaseCoherent_iff.1 h.inv.coherent with ⟨hh, -⟩ | ⟨-, hlt⟩ | hf
  · exact absurd hh hp
  · omega
  · exact hf

/-! ### The engine's steps, each with what the platform answers (R66 to R69) -/

theorem Running.headerStep (hp : s.phase = .hdr) (ho : (hdrOffsets j.op)[s.hpos]? = some o)
    (ha : s.mem.answer (j.aAddr.toNat + o) = .ok b) (hd : j.aAddr.toNat + o ∉ s.disturbed) :
    Machine.engineStep s = .next (Machine.latchHeader j o b s) := by
  have hget : (hdrOffsets j.op).getD s.hpos 0 = o := by simp [List.getD, ho]
  have hread := headerStep_of_ok (j := j) (hget.symm ▸ memRead_settled ha hd)
  rw [h.engineStep, engineMove_hdr hp, hread, hget]

theorem Running.completionStep (hp : s.phase = .finish) : Machine.engineStep s = .next (complete j s) := by
  rw [h.engineStep, engineMove_finish hp]

end

/-- What a stream source answers: a byte of the pseudo-header, or the platform's answer (R57). -/
def StreamSource.read (hph : Vector Byte 40) (m : Memory) (x : StreamSource) : MemResp :=
  match x with
  | .pseudoHeader k => .ok (byteAt hph k)
  | .memory a => m.answer a

theorem StreamSource.address_eq_some {x : StreamSource} {a : Nat} : x.address = some a ↔ x = .memory a := by
  cases x <;> simp [StreamSource.address]

section
variable {j : Job} {s : State} {a : Nat} {b : Byte} (h : Running j s)
include h

theorem Running.streamStep (hp : s.phase = .stream) (hx : (streamSource j s.pos).read s.hph s.mem = .ok b)
    (hd : ∀ a, streamSource j s.pos = .memory a → a ∉ s.disturbed) :
    Machine.engineStep s = .next (Machine.takeStreamByte j b s) := by
  rw [h.engineStep, engineMove_stream hp]
  cases hsrc : streamSource j s.pos with
  | pseudoHeader k =>
    rw [hsrc] at hx
    rw [streamStep_of_pseudoHeader hsrc, MemResp.ok.inj hx]
  | memory a =>
    rw [hsrc] at hx
    rw [streamStep_of_ok hsrc (memRead_settled hx (hd a hsrc))]

/-- A request is made by a header step or by a stream step that reads memory (R41). -/
theorem Running.request_cases (hreq : readRequest s = some a) :
    (s.phase = .hdr ∧ a = j.aAddr.toNat + (hdrOffsets j.op).getD s.hpos 0) ∨
      (s.phase = .stream ∧ streamSource j s.pos = .memory a) := by
  rcases phaseCoherent_iff.1 h.inv.coherent with ⟨hp, -⟩ | ⟨hp, -⟩ | hp
  · rw [readRequest_hdr h.job hp] at hreq
    exact .inl ⟨hp, (Option.some.inj hreq).symm⟩
  · rw [readRequest_stream h.job hp] at hreq
    exact .inr ⟨hp, StreamSource.address_eq_some.1 hreq⟩
  · rw [readRequest_finish h.job hp] at hreq
    cases hreq

/-- The engine's step ends the command when the read it requests gets BUS_ERROR (R69, R94). -/
theorem Running.busErrorStep (hreq : readRequest s = some a) (ha : s.mem.answer a = .busError) :
    Machine.engineStep s = .next (endError .bus (some (BitVec.ofNat 32 a)) s) := by
  rw [h.engineStep]
  rcases h.request_cases hreq with ⟨hp, rfl⟩ | ⟨hp, hsrc⟩
  · rw [engineMove_hdr hp, headerStep_of_busError (memRead_busError ha)]
  · rw [engineMove_stream hp, streamStep_of_busError hsrc (memRead_busError ha)]

/-- Every request is in the command's regions, which end at the top of the address space (R40, R41). -/
theorem Running.request_lt (hreq : readRequest s = some a) : a < 2 ^ 32 := by
  have hcov : jobCovers j a = true := by
    rcases h.request_cases hreq with ⟨hp, rfl⟩ | ⟨hp, hsrc⟩
    · exact jobCovers_header (h.hpos_lt hp)
    · exact jobCovers_stream (h.pos_lt hp) hsrc
  obtain ⟨r, hr, hle, hlt⟩ := jobCovers_iff.1 hcov
  rcases regionLegal_iff.1 (firstIllegal_eq_none.1 h.inv.legal r hr) with h0 | h1 <;> omega

end

/-- Settles O30, by the step of a refused request; VERDICT has been 0 since acceptance. -/
theorem busErrorEndsTheCommand : Obligations.BusErrorEndsTheCommand := by
  refine ⟨rfl, fun s a h hreq ha => ?_⟩
  cases hj : s.job with
  | none => simp [readRequest, hj] at hreq
  | some j =>
    have hrun := h.toRunning hj
    obtain ⟨-, -, hv⟩ := h.busyClear hrun.busy
    refine ⟨hrun.request_lt hreq, (hrun.busErrorStep hreq ha).trans ?_⟩
    simp [endError, Status.endError, hv]

/-- Settles O31, by the header step; whether it is the last one says which next state it gives. -/
theorem headerStepLatchesOneByte : Obligations.HeaderStepLatchesOneByte := by
  intro s j o b h hj hp ho ha hd
  rw [(h.toRunning hj).headerStep hp ho ha hd]
  by_cases hlast : s.hpos + 1 = (hdrOffsets j.op).length <;> simp [latchHeader, hlast]

theorem joinBytes_eq_ofNat (hi lo : Byte) : joinBytes hi lo = BitVec.ofNat 16 (256 * hi.toNat + lo.toNat) := by
  rw [← toNat_joinBytes, BitVec.ofNat_toNat, BitVec.setWidth_eq]

/-- Settles O32, by the stream step for either source of the byte. -/
theorem streamStepTakesOneByte : Obligations.StreamStepTakesOneByte := by
  intro s j b h hj hp hb
  have hstep : engineStep s = .next (takeStreamByte j b s) := by
    refine (h.toRunning hj).streamStep hp ?_ fun a ha => ?_
    · cases hsrc : streamSource j s.pos with
      | pseudoHeader k =>
        simp only [hsrc] at hb
        exact congrArg _ hb.symm
      | memory a =>
        simp only [hsrc] at hb
        exact hb.1
    · simp only [ha] at hb
      exact hb.2
  rw [hstep, takeStreamByte, hp]
  cases s.pend <;> simp [joinBytes_eq_ofNat]

theorem accWithTail_eq (acc : Word) (pend : Option Byte) :
    accWithTail acc pend =
      match pend with
      | none => acc
      | some b => accumulate acc (BitVec.ofNat 16 (256 * b.toNat)) := by
  cases pend with
  | none => rfl
  | some b => exact congrArg (accumulate acc) (joinBytes_eq_ofNat b 0)

theorem phAfter_eq (op : Instr) (built old : Vector Byte 40) :
    phAfter op built old = if op = .verifyV4 ∨ op = .verifyV6 then built else old := by
  cases op <;> rfl

theorem phLenAfter_eq (op : Instr) (old : BitVec 8) :
    phLenAfter op old = if op = .verifyV4 then 12 else if op = .verifyV6 then 40 else old := by
  cases op <;> rfl

theorem verdictOf_eq (c : Half) : verdictOf c = decide (c = 0x0000 ∨ c = 0xFFFF) := (Bool.decide_or ..).symm

/-- Settles O33: the completion step is `complete`, each of its results rewritten as the statement gives it. -/
theorem completionStepWritesTheResults : Obligations.CompletionStepWritesTheResults := by
  intro s j h hj hp
  refine ⟨accWithTail s.acc s.pend, _, accWithTail_eq _ _, rfl, ?_⟩
  rw [(h.toRunning hj).completionStep hp, complete, complement16_eq_not, phAfter_eq, phLenAfter_eq, verdictOf_eq]
  rfl

/-! ### No step stops, and every command ends (R70) -/

theorem State.Inv.engineStep_next {s : State} (h : s.Inv) : ∃ t, engineStep s = .next t := by
  cases hj : s.job with
  | none => exact ⟨s, engineStep_idle (.inr (by rw [h.busyIff, hj]; rfl))⟩
  | some j => exact ⟨_, (h.toRunning hj).engineStep⟩

/-- Settles O60: neither agent's turn stops, whatever the schedule. -/
theorem noReachableStepStops : Obligations.NoReachableStepStops := by
  intro s h
  cases hn : nextTurn s with
  | mk agent turns =>
    cases agent with
    | host => exact step_host hn ▸ hostStep_next _
    | engine => exact step_engine hn ▸ (inv_setTurns h turns).engineStep_next

/-- The run from `s` ends, with DONE = 1, within `k` turns of the engine, and after exactly `k` if it ends without an error. -/
abbrev EndsWithin (k : Nat) (s : State) : Prop :=
  ∃ n u, n ≤ k ∧ RunsExactly n s u ∧ u.status.busy = false ∧ u.status.done = true ∧ (u.status.err = false → n = k)

theorem endsWithin_of_ended {k : Nat} {s : State} (hb : s.status.busy = false) (hd : s.status.done = true)
    (he : s.status.err = false → k = 0) : EndsWithin k s :=
  ⟨0, s, Nat.zero_le k, runsExactly_zero.2 rfl, hb, hd, fun herr => (he herr).symm⟩

theorem endsWithin_succ {k : Nat} {s t : State} (hb : s.status.busy = true) (hs : engineStep s = .next t)
    (ht : EndsWithin k t) : EndsWithin (k + 1) s := by
  obtain ⟨n, u, hn, hrun, hbu, hdu, he⟩ := ht
  exact ⟨n + 1, u, Nat.succ_le_succ hn, runsExactly_succ.2 ⟨hb, t, hs, hrun⟩, hbu, hdu, fun herr => congrArg _ (he herr)⟩

/-- Every step of a command takes one of the steps left, or ends it with BUS. -/
theorem Running.ends {j : Job} {s : State} (h : Running j s) : EndsWithin (stepsLeft j s) s := by
  induction hk : stepsLeft j s generalizing s with
  | zero => exact absurd hk (Nat.succ_ne_zero _)
  | succ k ih =>
    refine endsWithin_succ h.busy h.engineStep ?_
    rcases engineMove_cases h.inv.coherent with ⟨a, hm⟩ | ⟨hp, b, d, hm⟩ | ⟨hp, b, d, hm⟩ | ⟨hp, hm⟩ <;> rw [hm]
    · exact endsWithin_of_ended rfl rfl nofun
    · have hlt := h.hpos_lt hp
      refine ih ((h.setDraws d).latchHeader hp _ b) ?_
      simp only [stepsLeft, latchHeader_hpos, latchHeader_pos, State.setDraws_hpos, State.setDraws_pos] at hk ⊢
      omega
    · have hlt := h.pos_lt hp
      refine ih ((h.setDraws d).takeStreamByte hp b) ?_
      simp only [stepsLeft, takeStreamByte_hpos, takeStreamByte_pos, State.setDraws_hpos, State.setDraws_pos] at hk ⊢
      omega
    · obtain ⟨hhpos, -⟩ := h.inv.assembled (by simp [hp])
      have hpos := h.inv.finished hp
      refine endsWithin_of_ended rfl rfl fun _ => ?_
      simp only [stepsLeft, hhpos, hpos] at hk
      omega

/-- Settles O52: a job of a state with the invariant runs. -/
theorem everyRunningCommandEnds : Obligations.EveryRunningCommandEnds := fun _ _ h hj => (h.toRunning hj).ends

end Sys2Proof.Machine

namespace Sys2Proof.Machine

/-! ### What a run of the engine leaves unchanged -/

/-- `s` with the hidden registers of `p`, but `h.job`, in place of its own (R26). -/
def State.setProgress (s p : State) : State :=
  { s with phase := p.phase, acc := p.acc, pend := p.pend, pos := p.pos, hpos := p.hpos, hb := p.hb, hph := p.hph }

/-- The hidden registers alone, but `h.job`, may differ: what the header and stream steps of settled bytes write (R66, R67). -/
abbrev OnlyProgress (s t : State) : Prop := t = s.setProgress t

theorem OnlyProgress.trans {s t u : State} (h : OnlyProgress s t) (k : OnlyProgress t u) : OnlyProgress s u :=
  calc
    u = t.setProgress u := k
    _ = (s.setProgress t).setProgress u := congrArg (State.setProgress · u) h

theorem onlyProgress_foldl {α : Type} {f : State → α → State} (hf : ∀ s x, OnlyProgress s (f s x)) (l : List α) (s : State) :
    OnlyProgress s (l.foldl f s) := by
  induction l generalizing s with
  | nil => rfl
  | cons x l ih => exact (hf s x).trans (ih (f s x))

/-- Runs follow one another: `n` turns to `t` and `m` turns from there. -/
theorem runsExactly_trans {n m : Nat} {s t u : State} (h : RunsExactly n s t) (k : RunsExactly m t u) :
    RunsExactly (n + m) s u := by
  induction n generalizing s with
  | zero =>
    obtain rfl := runsExactly_zero.1 h
    rwa [Nat.zero_add]
  | succ n ih =>
    obtain ⟨hb, r, hs, hrest⟩ := runsExactly_succ.1 h
    rw [Nat.succ_add]
    exact runsExactly_succ.2 ⟨hb, r, hs, ih hrest⟩

theorem runsExactly_one {s t : State} (hb : s.status.busy = true) (hs : engineStep s = .next t) : RunsExactly 1 s t :=
  runsExactly_succ.2 ⟨hb, t, hs, runsExactly_zero.2 rfl⟩

/-! ### Reading a whole header (R66) -/

/-- The header bytes at the offsets `os` latched one after the other, each as `hb` has it. -/
def readHeader (j : Job) (hb : Vector Byte 40) (os : List Nat) (s : State) : State :=
  os.foldl (fun t o => latchHeader j o (byteAt hb o) t) s

theorem readHeader_cons (j : Job) (hb : Vector Byte 40) (o : Nat) (os : List Nat) (s : State) :
    readHeader j hb (o :: os) s = readHeader j hb os (latchHeader j o (byteAt hb o) s) := rfl

theorem onlyProgress_readHeader (j : Job) (hb : Vector Byte 40) (os : List Nat) (s : State) :
    OnlyProgress s (readHeader j hb os s) :=
  onlyProgress_foldl (fun _ _ => rfl) os s

theorem readHeader_stream (j : Job) (hb : Vector Byte 40) (os : List Nat) (s : State) :
    (readHeader j hb os s).pend = s.pend ∧ (readHeader j hb os s).acc = s.acc ∧ (readHeader j hb os s).pos = s.pos := by
  induction os generalizing s with
  | nil => exact ⟨rfl, rfl, rfl⟩
  | cons o os ih => exact ih (latchHeader j o (byteAt hb o) s)

theorem byteAt_readHeader {j : Job} {hb : Vector Byte 40} {os : List Nat} {s : State} {k : Nat} (hlt : ∀ o ∈ os, o < 40) :
    byteAt (readHeader j hb os s).hb k = if k ∈ os then byteAt hb k else byteAt s.hb k := by
  induction os generalizing s with
  | nil => rfl
  | cons o os ih =>
    obtain ⟨ho, hos⟩ := List.forall_mem_cons.1 hlt
    rw [readHeader_cons, ih hos, latchHeader_hb, byteAt_setIfInBounds _ _ _ ho]
    by_cases hk : k = o <;> by_cases hm : k ∈ os <;> simp [hk, hm]

/-- The header's part of a run: one turn for each offset left, after which the stream is read or the command finishes. -/
theorem Running.header_run {j : Job} {s : State} {hb : Vector Byte 40} {os : List Nat} (h : Running j s)
    (hos : (hdrOffsets j.op).drop s.hpos = os) (hd : s.disturbed = [])
    (ha : ∀ o ∈ os, s.mem.answer (j.aAddr.toNat + o) = .ok (byteAt hb o)) :
    RunsExactly os.length s (readHeader j hb os s) ∧ Running j (readHeader j hb os s) ∧
      (readHeader j hb os s).phase ≠ .hdr := by
  induction os generalizing s with
  | nil =>
    have hle := List.drop_eq_nil_iff.1 hos
    exact ⟨runsExactly_zero.2 rfl, h, fun hp => Nat.not_le.2 (h.hpos_lt hp) hle⟩
  | cons o os ih =>
    obtain ⟨hao, haos⟩ := List.forall_mem_cons.1 ha
    have hlt : s.hpos < (hdrOffsets j.op).length :=
      Nat.not_le.1 fun hle => by simp [List.drop_eq_nil_of_le hle] at hos
    have hget : (hdrOffsets j.op)[s.hpos]? = some o := by rw [← List.head?_drop, hos]; rfl
    have hrest : (hdrOffsets j.op).drop (s.hpos + 1) = os := by rw [← List.tail_drop, hos]; rfl
    have hp := h.phase_hdr hlt
    obtain ⟨hrun, hr, hph⟩ :=
      ih (s := Machine.latchHeader j o (byteAt hb o) s) (h.latchHeader hp o (byteAt hb o)) hrest hd haos
    exact ⟨runsExactly_succ.2 ⟨h.busy, _, h.headerStep hp hget hao (by simp [hd]), hrun⟩, hr, hph⟩

theorem hdrOffsets_lt_40 (op : Instr) : ∀ o ∈ hdrOffsets op, o < 40 := by
  cases op <;> decide

/-- The pseudo-header depends on the header only at the offsets that the command reads (R81, R87). -/
theorem assemble_congr {op : Instr} {v w : Vector Byte 40} (h : ∀ o ∈ hdrOffsets op, byteAt v o = byteAt w o) (len : Word) :
    assemble op v len = assemble op w len := by
  cases op
  case verifyV4 =>
    have hmem : ∀ i < 8, 12 + i ∈ hdrOffsetsV4 := by decide
    have h9 : byteAt v 9 = byteAt w 9 := h 9 (by decide)
    simp only [assemble, assembleV4, h9]
    congr 1
    funext i
    split
    · exact h _ (hmem _ ‹_›)
    · rfl
  case verifyV6 =>
    have hmem : ∀ i < 32, 8 + i ∈ hdrOffsetsV6 := by decide
    have h4 : byteAt v 4 = byteAt w 4 := h 4 (by decide)
    have h5 : byteAt v 5 = byteAt w 5 := h 5 (by decide)
    have h6 : byteAt v 6 = byteAt w 6 := h 6 (by decide)
    simp only [assemble, assembleV6, h4, h5, h6]
    congr 1
    funext i
    split
    · exact h _ (hmem _ ‹_›)
    · rfl
  all_goals rfl

/-! ### Taking a whole stream (R67) -/

/-- Stream bytes taken one after the other. -/
def takeStream (j : Job) (bs : List Byte) (s : State) : State := bs.foldl (fun t b => takeStreamByte j b t) s

theorem takeStream_cons (j : Job) (b : Byte) (bs : List Byte) (s : State) :
    takeStream j (b :: bs) s = takeStream j bs (takeStreamByte j b s) := rfl

theorem onlyProgress_takeStream (j : Job) (bs : List Byte) (s : State) : OnlyProgress s (takeStream j bs s) :=
  onlyProgress_foldl (fun _ _ => rfl) bs s

theorem takeStream_pos (j : Job) (bs : List Byte) (s : State) : (takeStream j bs s).pos = s.pos + bs.length := by
  induction bs generalizing s with
  | nil => rfl
  | cons b bs ih => rw [takeStream_cons, ih, takeStreamByte_pos, List.length_cons, Nat.add_assoc, Nat.add_comm 1]

theorem takeStream_hph (j : Job) (bs : List Byte) (s : State) : (takeStream j bs s).hph = s.hph := by
  induction bs generalizing s with
  | nil => rfl
  | cons b bs ih => exact ih (takeStreamByte j b s)

/-- What the accumulator comes to, odd tail included: the words of the waiting byte and the bytes still to come (R58). -/
theorem accWithTail_takeStream (j : Job) (bs : List Byte) (s : State) :
    accWithTail (takeStream j bs s).acc (takeStream j bs s).pend = (wordsOf (s.pend.toList ++ bs)).foldl accumulate s.acc := by
  induction bs generalizing s with
  | nil =>
    show accWithTail s.acc s.pend = _
    cases s.pend <;> rfl
  | cons b bs ih =>
    rw [takeStream_cons, ih, takeStreamByte_acc, takeStreamByte_pend]
    cases s.pend <;> rfl

/-- The sources answer these bytes, one after the other: `StreamByte` of R57. -/
def StreamGives (hph : Vector Byte 40) (m : Memory) (f : Nat → StreamSource) (bs : List Byte) : Prop :=
  ∀ k b, bs[k]? = some b → (f k).read hph m = .ok b

theorem StreamGives.append {hph : Vector Byte 40} {m : Memory} {f : Nat → StreamSource} {as bs : List Byte}
    (ha : StreamGives hph m f as) (hb : StreamGives hph m (fun k => f (as.length + k)) bs) :
    StreamGives hph m f (as ++ bs) := by
  intro k b hk
  by_cases hlt : k < as.length
  · exact ha k b (by rwa [List.getElem?_append_left hlt] at hk)
  · have hle : as.length ≤ k := Nat.not_lt.1 hlt
    rw [List.getElem?_append_right hle] at hk
    simpa [Nat.add_sub_cancel' hle] using hb _ b hk

theorem StreamGives.congr {hph : Vector Byte 40} {m : Memory} {f g : Nat → StreamSource} {bs : List Byte}
    (h : StreamGives hph m f bs) (e : ∀ k < bs.length, g k = f k) : StreamGives hph m g bs := by
  intro k b hk
  obtain ⟨hlt, -⟩ := List.getElem?_eq_some_iff.1 hk
  rw [e k hlt]
  exact h k b hk

/-- The stream's part of a run: one turn for each byte. -/
theorem Running.stream_run {j : Job} {s : State} {bs : List Byte} (h : Running j s) (hp : s.phase ≠ .hdr)
    (hd : s.disturbed = []) (hlen : s.pos + bs.length ≤ streamLen j)
    (hbs : StreamGives s.hph s.mem (fun k => streamSource j (s.pos + k)) bs) :
    RunsExactly bs.length s (takeStream j bs s) ∧ Running j (takeStream j bs s) ∧ (takeStream j bs s).phase ≠ .hdr := by
  induction bs generalizing s with
  | nil => exact ⟨runsExactly_zero.2 rfl, h, hp⟩
  | cons b bs ih =>
    rw [List.length_cons] at hlen
    have hstream := h.phase_stream hp (by omega)
    have hstep := h.streamStep hstream (hbs 0 b rfl) (by simp [hd])
    have hnext : (Machine.takeStreamByte j b s).phase ≠ .hdr := by
      simp only [takeStreamByte_phase, hstream]
      split <;> nofun
    have hrest : StreamGives s.hph s.mem (fun k => streamSource j (s.pos + 1 + k)) bs := fun k c hk => by
      simpa [Nat.add_assoc, Nat.add_comm 1] using hbs (k + 1) c hk
    obtain ⟨hrun, hr, hph⟩ := ih (h.takeStreamByte hstream b) hnext hd (by rw [takeStreamByte_pos]; omega) hrest
    exact ⟨runsExactly_succ.2 ⟨h.busy, _, hstep, hrun⟩, hr, hph⟩

/-- From the end of the header on: one turn for each byte, and the completion step. -/
theorem Running.completes {j : Job} {s : State} {bs : List Byte} (h : Running j s) (hp : s.phase ≠ .hdr)
    (hd : s.disturbed = []) (hlen : s.pos + bs.length = streamLen j)
    (hbs : StreamGives s.hph s.mem (fun k => streamSource j (s.pos + k)) bs) :
    RunsExactly (bs.length + 1) s (complete j (takeStream j bs s)) := by
  obtain ⟨hrun, ht, htp⟩ := h.stream_run hp hd hlen.le hbs
  have hpos := (takeStream_pos j bs s).trans hlen
  exact runsExactly_trans hrun (runsExactly_one ht.busy (ht.completionStep (ht.phase_finish htp hpos)))

/-! ### A whole run, from acceptance to completion (R65 to R70) -/

/-- The state of an accepted command (R65). -/
abbrev accepted (op : Instr) (s : State) : State := startJob (copyOperands op s) (s.setStatus s.status.takeCommand)

section
variable {op : Instr} {s r : State}

theorem exec_eq_accepted (hr : Ready s) (hl : ∀ x ∈ regionsOf (copyOperands op s), regionLegal x = true) :
    exec op s = .next (accepted op s) :=
  exec_accepted hr hl rfl

theorem running_accepted (hr : Ready s) (hl : ∀ x ∈ regionsOf (copyOperands op s), regionLegal x = true) :
    Running (copyOperands op s) (accepted op s) :=
  ⟨rfl, rfl, hr.2, startJob_runInv (firstIllegal_eq_none.2 hl) _⟩

/-- `EndedWith` for a command whose value to fold has the folded sum of `T`, whatever it read. -/
abbrev EndedWithTotal (s u : State) (T : Nat) : Prop :=
  u.sum16 = BitVec.ofNat 16 (closedSum T) ∧
  u.cksum = ~~~u.sum16 ∧
  u.status = { busy := false, done := true, err := false, ovr := s.status.ovr, verdict := decide (T % 0xFFFF = 0)
               errCode := .none } ∧
  u.job = none ∧ u.phase = .idle ∧ u.faultAddr = s.faultAddr ∧ SameOperands s u ∧ SameOutside s u

theorem fold16_eq_ofNat {v : Word} {T : Nat} (h : closedSum v.toNat = closedSum T) :
    fold16 v = BitVec.ofNat 16 (closedSum T) := by
  rw [← h, ← toNat_fold16, BitVec.ofNat_toNat, BitVec.setWidth_eq]

theorem OnlyProgress.sameOperands {t : State} (h : OnlyProgress s t) : SameOperands s t := by
  rw [h]
  exact ⟨rfl, rfl, rfl, rfl, rfl, rfl⟩

theorem OnlyProgress.sameOutside {t : State} (h : OnlyProgress s t) : SameOutside s t := by
  rw [h]
  exact ⟨fun _ => rfl, rfl, rfl, rfl, rfl, rfl⟩

theorem OnlyProgress.sameResults {t : State} (h : OnlyProgress s t) : SameResults s t := by
  rw [h]
  exact ⟨rfl, rfl, rfl, rfl⟩

/-- What the completion step of an accepted command leaves. -/
theorem endedWithTotal_complete {T : Nat} (hr : OnlyProgress (accepted op s) r)
    (hT : closedSum (accWithTail r.acc r.pend).toNat = closedSum T) :
    EndedWithTotal s (complete (copyOperands op s) r) T := by
  have hst : r.status = (accepted op s).status := (congrArg State.status hr :)
  refine ⟨fold16_eq_ofNat hT, complement16_eq_not _, ?_, rfl, rfl, (congrArg State.faultAddr hr :), hr.sameOperands,
    hr.sameOutside⟩
  rw [complete_status, verdictOf_fold16 hT, hst]
  rfl

/-- Where an accepted command stands when it has read its header: the pseudo-header is that of `hb` (R66). -/
theorem accepted_reads_header {hb : Vector Byte 40} (hr : Ready s) (hfree : s.hidden = [])
    (hl : ∀ x ∈ regionsOf (copyOperands op s), regionLegal x = true)
    (hhdr : headerBytesAt s.mem s.aAddr.toNat op hb = true)
    (h : r = readHeader (copyOperands op s) hb (hdrOffsets op) (accepted op s)) :
    RunsExactly (hdrOffsets op).length (accepted op s) r ∧ Running (copyOperands op s) r ∧ r.phase ≠ .hdr ∧
      r.hph = assemble op hb s.bLen := by
  have ha : ∀ o ∈ hdrOffsets op, s.mem.answer (s.aAddr.toNat + o) = .ok (byteAt hb o) := by
    simpa [headerBytesAt] using hhdr
  obtain ⟨hrun, hrr, hrp⟩ := h ▸ (running_accepted hr hl).header_run (os := hdrOffsets op) rfl hfree ha
  refine ⟨hrun, hrr, hrp, (hrr.inv.assembled hrp).2.trans (assemble_congr (fun o ho => ?_) s.bLen)⟩
  rw [h, byteAt_readHeader (hdrOffsets_lt_40 op)]
  exact if_pos ho

/-- The whole run of a command whose regions are legal and whose bytes, header and stream, the platform answers. -/
theorem command_run {hb : Vector Byte 40} {bs : List Byte} {n T : Nat} (hr : Ready s) (hfree : s.hidden = [])
    (hl : ∀ x ∈ regionsOf (copyOperands op s), regionLegal x = true)
    (hhdr : headerBytesAt s.mem s.aAddr.toNat op hb = true)
    (hlen : bs.length = streamLen (copyOperands op s))
    (hbs : StreamGives (assemble op hb s.bLen) s.mem (streamSource (copyOperands op s)) bs)
    (hT : closedSum ((wordsOf bs).foldl accumulate (startAcc (copyOperands op s))).toNat = closedSum T)
    (hn : (hdrOffsets op).length + (bs.length + 1) = n) :
    ∃ t u, exec op s = .next t ∧ RunsExactly n t u ∧ EndedWithTotal s u T ∧
      u.ph = phAfter op (assemble op hb s.bLen) s.ph ∧ u.phLen = phLenAfter op s.phLen := by
  obtain ⟨r, hrdef⟩ : ∃ r, r = readHeader (copyOperands op s) hb (hdrOffsets op) (accepted op s) := ⟨_, rfl⟩
  obtain ⟨hrun, hrr, hrp, hhph⟩ := accepted_reads_header hr hfree hl hhdr hrdef
  obtain ⟨hpend, hacc, hpos⟩ := hrdef ▸ readHeader_stream (copyOperands op s) hb (hdrOffsets op) (accepted op s)
  have hprog : OnlyProgress (accepted op s) r := hrdef ▸ onlyProgress_readHeader _ _ _ _
  have hmem : r.mem = s.mem := (congrArg State.mem hprog :)
  have hd : r.disturbed = [] := (congrArg State.disturbed hprog :).trans hfree
  have hpos : r.pos = 0 := hpos
  have hgives : StreamGives r.hph r.mem (fun k => streamSource (copyOperands op s) (r.pos + k)) bs := by
    rw [hhph, hmem, hpos]
    simpa using hbs
  have hend := hrr.completes hrp hd (by rw [hpos, hlen, Nat.zero_add]) hgives
  have hprog' := hprog.trans (onlyProgress_takeStream (copyOperands op s) bs r)
  obtain ⟨-, -, hph, hphLen⟩ := hprog'.sameResults
  refine ⟨_, _, exec_eq_accepted hr hl, hn ▸ runsExactly_trans hrun hend, endedWithTotal_complete hprog' ?_, ?_, ?_⟩
  · rw [accWithTail_takeStream, hpend, hacc]
    exact hT
  · rw [complete_ph, takeStream_hph, hhph, hph]
    rfl
  · rw [complete_phLen, hphLen]
    rfl

end

/-! ### The bytes of each command's stream (R57) -/

theorem bytesAt_cons {m : Memory} {a n : Nat} {bs : List Byte} (h : bytesAt m a (n + 1) = some bs) :
    ∃ b r, m.answer a = .ok b ∧ bytesAt m (a + 1) n = some r ∧ bs = b :: r := by
  unfold bytesAt at h
  split at h
  · cases h
  · obtain ⟨r, hr, rfl⟩ := Option.map_eq_some_iff.1 h
    exact ⟨_, r, ‹_›, hr, rfl⟩

theorem length_bytesAt {m : Memory} {a n : Nat} {bs : List Byte} (h : bytesAt m a n = some bs) : bs.length = n := by
  induction n generalizing a bs with
  | zero => cases h; rfl
  | succ n ih =>
    obtain ⟨b, r, -, hr, rfl⟩ := bytesAt_cons h
    rw [List.length_cons, ih hr]

/-- Each byte of a region stands at its address. -/
theorem streamGives_bytesAt {m : Memory} {a n : Nat} {bs : List Byte} (h : bytesAt m a n = some bs) (hph : Vector Byte 40) :
    StreamGives hph m (fun k => .memory (a + k)) bs := by
  induction n generalizing a bs with
  | zero => cases h; nofun
  | succ n ih =>
    obtain ⟨b, r, hb, hr, rfl⟩ := bytesAt_cons h
    rintro (_ | k) c hk
    · cases hk
      exact hb
    · simpa [Nat.add_assoc, Nat.add_comm 1] using ih hr k c hk

section
variable {m : Memory} {a b : Word} {n l : Nat} {as bs : List Byte} (hph : Vector Byte 40)

theorem streamGives_twoRegions (ha : bytesAt m a.toNat n = some as) (hb : bytesAt m b.toNat l = some bs) :
    StreamGives hph m (twoRegions a n b) (as ++ bs) := by
  have hlen := length_bytesAt ha
  refine ((streamGives_bytesAt ha hph).congr fun k hk => ?_).append ((streamGives_bytesAt hb hph).congr fun k _ => ?_)
  · exact if_pos (hlen ▸ hk)
  · simp [twoRegions, hlen]

theorem streamGives_register : StreamGives hph m .pseudoHeader (hph.toList.take n) := by
  intro k b hk
  obtain ⟨hlt, rfl⟩ := List.getElem?_eq_some_iff.1 hk
  have hk40 : k < 40 := by simp at hlt; omega
  simp [StreamSource.read, byteAt_eq_getElem _ hk40]

theorem streamGives_afterPseudoHeader (hn : n ≤ 40) (hb : bytesAt m b.toNat l = some bs) :
    StreamGives hph m (afterPseudoHeader n b) (hph.toList.take n ++ bs) := by
  have hlen : (hph.toList.take n).length = n := by simp [hn]
  refine ((streamGives_register hph).congr fun k hk => ?_).append ((streamGives_bytesAt hb hph).congr fun k _ => ?_)
  · exact if_pos (hlen ▸ hk)
  · simp [afterPseudoHeader, hlen]

end

/-! ### The run of each command -/

/-- Settles O45, by `command_run` over the one buffer. -/
theorem sumRunGivesTheChecksum : Obligations.SumRunGivesTheChecksum := by
  intro s bs hr hfree ha hbs
  have hlen := length_bytesAt hbs
  exact command_run (op := .sum) (hb := zeros40) hr hfree (List.forall_mem_singleton.2 (buffer_legal ha)) rfl hlen
    (streamGives_bytesAt hbs _) (closedSum_accumulate_words _) (by simp [hdrOffsets, hlen])

/-- Settles O46, by `command_run` over the two buffers as one stream. -/
theorem sum2RunGivesTheChecksum : Obligations.Sum2RunGivesTheChecksum := by
  intro s as bs hr hfree ha hb has hbs
  have hlen : (as ++ bs).length = s.aLen.toNat + s.bLen.toNat := by
    rw [List.length_append, length_bytesAt has, length_bytesAt hbs]
  exact command_run (op := .sum2) (hb := zeros40) hr hfree (legal_of_two (buffer_legal ha) (buffer_legal hb)) rfl hlen
    (streamGives_twoRegions _ has hbs) (closedSum_accumulate_words _) (by rw [hlen]; simp [hdrOffsets])

/-- Settles O47: FOLD starts at its completion step, with ACC_IN the value to fold. -/
theorem foldRunFoldsAccIn : Obligations.FoldRunFoldsAccIn := by
  intro s hr
  have hl : ∀ x ∈ regionsOf (copyOperands .fold s), regionLegal x = true := List.forall_mem_nil _
  have hrun := runsExactly_one rfl ((running_accepted hr hl).completionStep rfl)
  obtain ⟨hsum, hck, hst, hjob, hphase, hfault, hops, hout⟩ :=
    endedWithTotal_complete (op := .fold) (s := s) (r := accepted .fold s) (T := s.accIn.toNat) rfl rfl
  exact ⟨_, _, exec_eq_accepted hr hl, hrun, hsum, hck, hst, hjob, hphase, hfault, hops, hout, rfl, rfl⟩

/-- Settles O48, by `command_run` over header and options as one stream. -/
theorem verifyIpRunChecksTheHeader : Obligations.VerifyIpRunChecksTheHeader := by
  intro s hdr opts hr hfree ha hb hhdr hopts
  have hlen : (hdr ++ opts).length = 20 + s.bLen.toNat := by
    rw [List.length_append, length_bytesAt hhdr, length_bytesAt hopts]
  exact command_run (op := .verifyIp) (hb := zeros40) hr hfree (legal_of_two (header_legal ha) (buffer_legal hb)) rfl hlen
    (streamGives_twoRegions _ hhdr hopts) (closedSum_accumulate_words _) (by rw [hlen]; simp [hdrOffsets])

/-- Settles O49, by `command_run` over pseudo-header and payload. -/
theorem verifyV4RunChecksThePayload : Obligations.VerifyV4RunChecksThePayload := by
  intro s hb payload hr hfree ha hbl hhdr hpay
  have hlen : ((assembleV4 hb s.bLen).toList.take 12 ++ payload).length = 12 + s.bLen.toNat := by
    rw [List.length_append, length_bytesAt hpay]
    simp
  exact command_run (op := .verifyV4) hr hfree (legal_of_two (header_legal ha) (buffer_legal hbl)) hhdr hlen
    (streamGives_afterPseudoHeader _ (by decide) hpay) (closedSum_accumulate_words _) (by rw [hlen]; rfl)

/-- Settles O50, by `command_run` over pseudo-header and payload. -/
theorem verifyV6RunChecksThePayload : Obligations.VerifyV6RunChecksThePayload := by
  intro s hb payload hr hfree ha hbl hhdr hpay
  have htake : (assembleV6 hb).toList = (assembleV6 hb).toList.take 40 := (List.take_of_length_le (by simp)).symm
  have hlen : ((assembleV6 hb).toList ++ payload).length = 40 + s.bLen.toNat := by
    rw [List.length_append, length_bytesAt hpay]
    simp
  refine command_run (op := .verifyV6) hr hfree (legal_of_two (header_legal ha) (buffer_legal hbl)) hhdr hlen
    ?_ (closedSum_accumulate_words _) (by rw [hlen]; rfl)
  rw [htake]
  exact streamGives_afterPseudoHeader _ (by decide) hpay

/-- Settles O51: the bytes before the refused one are taken, and then its request ends the command. -/
theorem sumRunStopsAtTheFirstBusError : Obligations.SumRunStopsAtTheFirstBusError := by
  intro s k bs hr hfree hk ha hbs hbus
  have hl : ∀ x ∈ regionsOf (copyOperands .sum s), regionLegal x = true :=
    List.forall_mem_singleton.2 (buffer_legal (.inr ha))
  have hlen := length_bytesAt hbs
  have hgives : StreamGives zeros40 s.mem (fun i => .memory (s.aAddr.toNat + (0 + i))) bs := by
    simpa using streamGives_bytesAt hbs zeros40
  let j := copyOperands .sum s
  let t := accepted .sum s
  let r := takeStream j bs t
  have hstart : startPhase j ≠ .hdr := by
    rw [startPhase_sum]
    split <;> nofun
  have hfits : t.pos + bs.length ≤ streamLen j := by
    rw [hlen]
    exact (Nat.zero_add k).le.trans hk.le
  obtain ⟨hrun, hr', hp⟩ := (running_accepted hr hl).stream_run hstart hfree hfits hgives
  have hprog : OnlyProgress t r := onlyProgress_takeStream j bs t
  have hpos : r.pos = k := by
    rw [takeStream_pos, hlen]
    exact Nat.zero_add k
  have hreq : readRequest r = some (s.aAddr.toNat + k) := by
    rw [readRequest_stream hr'.job (hr'.phase_stream hp (hpos ▸ hk)), hpos]
    rfl
  have hmem : r.mem = s.mem := (congrArg State.mem hprog :)
  have hst : r.status = t.status := (congrArg State.status hprog :)
  have hend := runsExactly_one hr'.busy (hr'.busErrorStep hreq (hmem ▸ hbus))
  refine ⟨t, endError .bus _ r, exec_eq_accepted hr hl, hlen ▸ runsExactly_trans hrun hend, ?_, ?_, rfl, rfl, hprog.sameOperands,
    hprog.sameResults, hprog.sameOutside⟩
  · rw [endError_status, hst]
    rfl
  · show BitVec.ofNat 32 (s.aAddr.toNat + k) = _
    rw [BitVec.ofNat_add, BitVec.ofNat_toNat, BitVec.setWidth_eq]

end Sys2Proof.Machine

namespace Sys2Proof.Machine

/-! ### A changed byte (R78) -/

/-- A byte's place in a stream gives it a weight in the sum of words, 1 or 256, whatever its value and the other bytes are. -/
theorem totalOf_wordsOf_byte (post : List Byte) : ∀ pre : List Byte,
    ∃ T k : Nat, (k = 1 ∨ k = 256) ∧ ∀ x : Byte, totalOf (wordsOf (pre ++ x :: post)) = T + k * x.toNat
  | [] => by
    cases post with
    | nil => exact ⟨0, 256, .inr rfl, fun x => by simp [toNat_joinBytes]⟩
    | cons b r =>
      refine ⟨b.toNat + totalOf (wordsOf r), 256, .inr rfl, fun x => ?_⟩
      rw [List.nil_append, wordsOf_cons_cons, totalOf_cons, toNat_joinBytes]
      omega
  | [a] => by
    refine ⟨256 * a.toNat + totalOf (wordsOf post), 1, .inl rfl, fun x => ?_⟩
    rw [List.singleton_append, wordsOf_cons_cons, totalOf_cons, toNat_joinBytes]
    omega
  | a :: b :: r => by
    obtain ⟨T, k, hk, hsum⟩ := totalOf_wordsOf_byte post r
    refine ⟨(joinBytes a b).toNat + T, k, hk, fun x => ?_⟩
    rw [List.cons_append, List.cons_append, wordsOf_cons_cons, totalOf_cons, hsum, Nat.add_assoc]

theorem verdictOf_streamSum (bs : List Byte) :
    verdictOf (complement16 (streamSum bs)) = decide (totalOf (wordsOf bs) % 0xFFFF = 0) :=
  verdictOf_fold16 (closedSum_accumulate_words _)

/-- Settles O42: the sum of words changes by `d` or `256 * d` with `0 < |d| ≤ 255`, never a multiple of 0xFFFF. -/
theorem singleByteChangeIsDetected : Obligations.SingleByteChangeIsDetected := by
  intro pre post x y hne hx
  obtain ⟨T, k, hk, hsum⟩ := totalOf_wordsOf_byte post pre
  have hxy : x.toNat ≠ y.toNat := mt BitVec.eq_of_toNat_eq hne
  have hxlt := x.isLt
  have hylt := y.isLt
  rw [verdictOf_streamSum, hsum, decide_eq_true_iff] at hx
  rw [verdictOf_streamSum, hsum, decide_eq_false_iff_not]
  rcases hk with rfl | rfl <;> omega

end Sys2Proof.Machine

namespace Sys2Proof.Machine

/-! ### The two pseudo-headers, byte for byte (R81, R82, R87) -/

theorem lengthFieldV4_high (len : Word) :
    (lengthFieldV4 len).extractLsb' 8 8 = BitVec.ofNat 8 (len.toNat % 2 ^ 16 / 256) := by
  apply BitVec.eq_of_toNat_eq
  simp [lengthFieldV4, BitVec.extractLsb'_toNat, toNat_lowHalf, Nat.shiftRight_eq_div_pow]

theorem lengthFieldV4_low (len : Word) : (lengthFieldV4 len).extractLsb' 0 8 = BitVec.ofNat 8 (len.toNat % 256) := by
  apply BitVec.eq_of_toNat_eq
  simp [lengthFieldV4, BitVec.extractLsb'_toNat, toNat_lowHalf]

/-- R81: each of the 40 positions selects its branch of the layout by computation, whatever the header and length are. -/
theorem toList_assembleV4 (hb : Vector Byte 40) (len : Word) :
    (assembleV4 hb len).toList =
      [byteAt hb 12, byteAt hb 13, byteAt hb 14, byteAt hb 15, byteAt hb 16, byteAt hb 17, byteAt hb 18, byteAt hb 19,
        0x00, byteAt hb 9, (lengthFieldV4 len).extractLsb' 8 8, (lengthFieldV4 len).extractLsb' 0 8] ++
      List.replicate 28 0x00 := by
  rw [assembleV4, Vector.toList_ofFn]
  rfl

/-- R87, by computation as for IPv4: source address, destination address, length, three zero bytes, next header. -/
theorem toList_assembleV6 (hb : Vector Byte 40) :
    (assembleV6 hb).toList =
      (List.range 16).map (fun k => byteAt hb (8 + k)) ++ (List.range 16).map (fun k => byteAt hb (24 + k)) ++
      [0x00, 0x00, byteAt hb 4, byteAt hb 5, 0x00, 0x00, 0x00, byteAt hb 6] := by
  rw [assembleV6, Vector.toList_ofFn]
  rfl

/-- Settles O43, from the two layouts, the two bytes of the IPv4 length field written as naturals (R82). -/
theorem pseudoHeaderLayouts : Obligations.PseudoHeaderLayouts := by
  refine ⟨rfl, rfl, fun hb len => ⟨?_, toList_assembleV6 hb⟩⟩
  rw [← lengthFieldV4_high, ← lengthFieldV4_low]
  exact toList_assembleV4 hb len

end Sys2Proof.Machine

namespace Sys2Proof.Machine

/-! ### The place of the length in the IPv6 pseudo-header (R88) -/

/-- No word crosses the end of a prefix of even length (R58). -/
theorem wordsOf_append_of_even : ∀ {as : List Byte}, Even as.length → ∀ bs : List Byte,
    wordsOf (as ++ bs) = wordsOf as ++ wordsOf bs
  | [], _, _ => rfl
  | [_], h, _ => absurd h Nat.not_even_one
  | a :: b :: r, h, bs => by
    have hr : Even r.length := by simpa [Nat.even_add_one] using h
    rw [List.cons_append, List.cons_append, wordsOf_cons_cons, wordsOf_cons_cons, wordsOf_append_of_even hr,
      List.cons_append]

/-- Settles O44: the length word and the zero word of the field change places, and word order does not matter (O39). -/
theorem ipv6LengthPlacementDoesNotMatter : Obligations.IPv6LengthPlacementDoesNotMatter := by
  intro addresses payload hi lo next hlen
  have heven : Even addresses.length := hlen ▸ by decide
  apply wordOrderDoesNotMatter
  rw [List.append_assoc, List.append_assoc, wordsOf_append_of_even heven, wordsOf_append_of_even heven]
  exact .append_left _ (.swap (joinBytes hi lo) (joinBytes 0 0) _)

end Sys2Proof.Machine

namespace Sys2Proof.Machine

/-! ### A command that the idle block takes (R65, R69) -/

theorem takeCommand_ready {s : State} (hr : Ready s) (go : State → State) :
    takeCommand go s = go (s.setStatus s.status.takeCommand) := by
  simp [takeCommand, hr.1, hr.2]

theorem exec_ready {s : State} (hr : Ready s) (i : Instr) :
    exec i s = .next (checkAndStart i (s.setStatus s.status.takeCommand)) :=
  (exec_eq_issue i s).trans (congrArg _ (takeCommand_ready hr _))

theorem portWrite_illegal {c : Word} {e : Illegal} (h : decode c = .error e) (s : State) :
    portWrite 2 c s = .next (issueIllegal s) := by
  show writeCmd c s = _
  simp only [writeCmd, h]

/-- A command with a region that is not legal ends at once, with the base of the first such region (R93, R95 item 3). -/
theorem exec_rejected {op : Instr} {s : State} {r : Region} (hr : Ready s)
    (hf : firstIllegal (regionsOf (copyOperands op s)) = some r) :
    exec op s = .next (endError .range (some r.base) (s.setStatus s.status.takeCommand)) := by
  rw [exec_ready hr]
  rcases checkAndStart_cases op (s.setStatus s.status.takeCommand) with ⟨q, hq, hend⟩ | ⟨hnone, -⟩
  · obtain rfl := Option.some.inj (hf.symm.trans hq)
    rw [hend]
  · cases hf.symm.trans hnone

/-- A CMD write to the idle block that leaves no command running has ended one in an error. -/
theorem portWrite_cmd_ended {s t : State} {c : Word} (hr : Ready s) (h : portWrite 2 c s = .next t)
    (hb : t.status.busy = false) : ∃ code addr, t = endError code addr (s.setStatus s.status.takeCommand) := by
  cases hd : decode c with
  | error e =>
    obtain rfl := Host.Outcome.next.inj ((portWrite_illegal hd s).symm.trans h)
    exact ⟨.illegalCmd, none, takeCommand_ready hr _⟩
  | ok i =>
    obtain rfl := Host.Outcome.next.inj ((exec_ready hr i).symm.trans ((portWrite_cmd hd s).symm.trans h))
    rcases checkAndStart_cases i (s.setStatus s.status.takeCommand) with ⟨r, -, hend⟩ | ⟨-, hstart⟩
    · exact ⟨.range, some r.base, hend⟩
    · rw [hstart] at hb
      cases hb

/-! ### The interrupt line (R96) -/

theorem irq_iff {s : State} : s.irq = true ↔ s.status.done = true ∧ s.irqEn = true := Bool.and_eq_true_iff

theorem irq_of_not_done {s : State} (h : s.status.done = false) : s.irq = false := by
  simp [State.irq, h]

theorem irq_of_not_enabled {s : State} (h : s.irqEn = false) : s.irq = false := by
  simp [State.irq, h]

@[simp] theorem irq_endError (code : ErrCode) (addr : Option Word) (s : State) : (endError code addr s).irq = s.irqEn := rfl

@[simp] theorem irq_complete (j : Job) (s : State) : (complete j s).irq = s.irqEn := rfl

/-- The engine's turn that ends a command raises the line when IRQ_EN is 1, whether the end is an error or not. -/
theorem irq_of_engineStep_ended {s t : State} (hb : s.status.busy = true) (h : engineStep s = .next t)
    (ht : t.status.busy = false) : t.irq = s.irqEn := by
  obtain ⟨-, rfl⟩ | ⟨-, -, j, -, hc, -, rfl⟩ := engineStep_cases h
  · cases hb.symm.trans ht
  rcases engineMove_cases hc with ⟨a, hm⟩ | ⟨-, b, d, hm⟩ | ⟨-, b, d, hm⟩ | ⟨-, hm⟩ <;> rw [hm] at ht ⊢
  · exact irq_endError _ _ s
  · cases hb.symm.trans ht
  · cases hb.symm.trans ht
  · exact irq_complete j s

/-- Settles O14: what each transaction leaves in DONE or in IRQ_EN, and the line at both kinds of end. -/
theorem interruptFollowsDoneAndEnable : Obligations.InterruptFollowsDoneAndEnable := by
  refine ⟨fun _ => irq_iff, fun s t v hr hv h => ?status, fun s t v hr hv h => ?ctrl, fun i s t hr h hb => ?accepted,
    fun s t h => ?reset, fun _ _ => irq_of_engineStep_ended, fun s t c hr h hb => ?ended⟩
  case status =>
    obtain rfl := Host.Outcome.next.inj ((portWrite_released hr (by decide) v).symm.trans h)
    apply irq_of_not_done
    show (s.status.done && !v.getLsbD 1) = false
    rw [hv, Bool.not_true, Bool.and_false]
  case ctrl =>
    obtain rfl := Host.Outcome.next.inj ((portWrite_released hr (by decide) v).symm.trans h)
    exact irq_of_not_enabled hv
  case accepted =>
    obtain ⟨-, rfl⟩ := startJob_of_accepted hr h hb
    exact irq_of_not_done rfl
  case reset =>
    obtain rfl := Host.Outcome.next.inj h
    exact irq_of_not_done rfl
  case ended =>
    obtain ⟨code, addr, rfl⟩ := portWrite_cmd_ended hr h hb
    exact irq_endError code addr _

/-! ### Illegal words and regions past the top (R92, R93) -/

/-- Settles O28: the words listed are those that do not decode (O2), and such a word ends in `endError`. -/
theorem illegalCommandEndsAtOnce : Obligations.IllegalCommandEndsAtOnce := by
  refine ⟨rfl, fun s c hr hc => ?_⟩
  obtain ⟨e, hd⟩ := (onlyTheSixWordsDecode c).2.2 hc
  exact (portWrite_illegal hd s).trans (congrArg _ (takeCommand_ready hr _))

theorem not_regionLegal_iff {r : Region} : ¬ regionLegal r = true ↔ 0 < r.len ∧ 2 ^ 32 < r.base.toNat + r.len := by
  rw [regionLegal_iff]
  omega

theorem firstIllegal_of_head {r : Region} (h : ¬ regionLegal r = true) (rs : List Region) : firstIllegal (r :: rs) = some r := by
  simp [firstIllegal, h]

theorem firstIllegal_of_legal_head {r : Region} (h : regionLegal r = true) (rs : List Region) :
    firstIllegal (r :: rs) = firstIllegal rs := by
  simp [firstIllegal, h]

/-- The regions of every command but FOLD: `aLen` bytes at A_ADDR, and for all but SUM what the B registers give (R65). -/
theorem regionsOf_copyOperands {i : Instr} {s : State} {aLen : Nat}
    (h : (i = .sum ∨ i = .sum2) ∧ aLen = s.aLen.toNat ∨ (i = .verifyIp ∨ i = .verifyV4) ∧ aLen = 20 ∨
      i = .verifyV6 ∧ aLen = 40) :
    regionsOf (copyOperands i s) = ⟨s.aAddr, aLen⟩ :: if i = .sum then [] else [⟨s.bAddr, s.bLen.toNat⟩] := by
  obtain ⟨rfl | rfl, rfl⟩ | ⟨rfl | rfl, rfl⟩ | ⟨rfl, rfl⟩ := h <;> rfl

/-- Settles O29, by `exec_rejected` with the region at A, or with the one at B when the region at A is legal. -/
theorem rangeErrorNamesTheFirstBadRegion : Obligations.RangeErrorNamesTheFirstBadRegion := by
  refine ⟨rfl, fun s i aLen hr hi => ?_, fun s t hr h => ?fold⟩
  case fold =>
    obtain rfl := Host.Outcome.next.inj ((foldIsAccepted s hr).symm.trans h)
    rfl
  have hregions := regionsOf_copyOperands hi
  refine ⟨fun ha => ?badA, fun ha hne hb => ?badB⟩
  case badA =>
    have hA : ¬ regionLegal ⟨s.aAddr, aLen⟩ = true := not_regionLegal_iff.2 ha
    exact exec_rejected hr (hregions ▸ firstIllegal_of_head hA _)
  case badB =>
    have hA : regionLegal ⟨s.aAddr, aLen⟩ = true := not_not.1 (mt not_regionLegal_iff.1 ha)
    have hB : ¬ regionLegal ⟨s.bAddr, s.bLen.toNat⟩ = true := not_regionLegal_iff.2 hb
    refine exec_rejected (r := ⟨s.bAddr, s.bLen.toNat⟩) hr ?_
    rw [hregions, if_neg hne, firstIllegal_of_legal_head hA, firstIllegal_of_head hB]

end Sys2Proof.Machine

namespace Sys2Proof.Machine

/-! ### The register port while reset is asserted (R106) -/

theorem takeCommand_inReset {s : State} (h : s.inReset = true) (go : State → State) : takeCommand go s = s :=
  if_pos h

/-- CMD is ignored like any other slot: a command and an illegal word alike go through `takeCommand`. -/
theorem portWrite_inReset {s : State} (h : s.inReset = true) (i : BitVec 5) (v : Word) : portWrite i v s = .next s := by
  rcases portWrite_cases i v s with ⟨-, op, -, hw⟩ | ⟨-, -, hw⟩ | ⟨-, -, hw⟩ | ⟨-, hr, -⟩
  · exact hw.trans (congrArg _ (takeCommand_inReset h (checkAndStart op)))
  · exact hw.trans (congrArg _ (takeCommand_inReset h (endError .illegalCmd none)))
  · exact hw
  · cases h.symm.trans hr

theorem portRead_inReset {s : State} (h : s.inReset = true) (i : BitVec 5) : portRead s i = portRead State.reset i := by
  rw [portRead_released (s := State.reset) rfl, portRead, if_pos h]

/-- Settles O7: `assertReset` and `releaseReset` are the states listed, and neither the port nor the engine acts in reset. -/
theorem assertedResetClearsTheBlock : Obligations.AssertedResetClearsTheBlock := by
  refine ⟨fun s => ⟨assertReset s, rfl, rfl, irq_of_not_done rfl, rfl⟩, fun s hr => ⟨?write, ?read, ?engine⟩, fun _ => rfl⟩
  case write => exact portWrite_inReset hr
  case read => exact portRead_inReset hr
  case engine => exact engineStep_idle (.inl hr)

end Sys2Proof.Machine
